-- ==== Sys2Proof/Word.lean ====
section
/-! DEFINITION. The word types of PCBM (00_scope.md R8: every value is an unsigned integer of a stated width). -/

namespace Sys2Proof

/-- A byte of host memory, a colour channel, a brightness (R8, R63, R91). -/
abbrev Byte := BitVec 8

/-- A back-buffer cell, a panel-native pixel, a duty level (R34, R29). -/
abbrev Pixel := BitVec 16

/-- A command word, a register's data, a host address (R22, R90; HOST_ADDR_BITS = 32, R7). -/
abbrev Word := BitVec 32

end Sys2Proof
end

