-- ==== Sys2Proof/Config.lean ====
section
/-! DEFINITION. What is fixed for this hardware: the parameters of 00_scope.md R6 and R7, and the values the
spec leaves open, which are constants with no body (`opaque`): nothing can be proved of them. -/

namespace Sys2Proof

/-- HREP ∈ {1, 2}, how many adjacent cells of a destination row a source pixel fills (R7, D1, U4). -/
inductive Hrep where
  | one
  | two
  deriving DecidableEq, Repr

/-- HREP as a number. -/
def Hrep.val : Hrep → Nat
  | .one => 1
  | .two => 2

namespace Config

/-- SRC_W, framebuffer width in pixels (R6). -/
def srcW : Nat := 160

/-- SRC_H, framebuffer height in pixels (R6). -/
def srcH : Nat := 120

/-- SRC_N = SRC_W × SRC_H = 19200 source pixels (R6). -/
def srcN : Nat := srcW * srcH

/-- SRC_STRIDE, bytes per source pixel (R6). -/
def srcStride : Nat := 4

/-- FB_LEN, bytes of the framebuffer (R6). -/
def fbLen : Nat := srcN * srcStride

/-- VREP, destination rows per source row (R6). -/
def vrep : Nat := 2

/-- HREP for this hardware (R7, D1). The model takes HREP as an argument everywhere: the decoder and the geometry as
an operand, the step as a field of State. Log entry 13. -/
def hrep : Hrep := .two

/-- DST_W, cells per destination row (R7). -/
def dstW (h : Hrep) : Nat := srcW * h.val

/-- DST_H, destination rows (R7). -/
def dstH : Nat := srcH * vrep

/-- DST_N, cells of the back-buffer: 76800 for HREP = 2, 38400 for HREP = 1 (R7). -/
def dstN (h : Hrep) : Nat := dstW h * dstH

/-- REG_BASE, where the platform puts the register window (R7, R22, U12). OPEN; log entry 14. -/
opaque regBase : Word

/-- The bytes of the register window (R22). -/
def windowLen : Nat := 32

/-- T_WAKE_SETTLE in milliseconds, a duty of the sleep sequencer; no rule of PCBM reads it (R6, R253). -/
def tWakeSettleMs : Nat := 120

/-- T_ENTRY_SETTLE in milliseconds, "a short delay" (R7, R252, U5). OPEN; no rule of PCBM reads it; log entry 15. -/
opaque tEntrySettleMs : Nat

/-- OUT_BYTE_ORDER: whether the transfer engine sends a cell's high byte first (R7, R65, U6). OPEN; no rule of
PCBM reads it; log entry 15. -/
opaque outHighByteFirst : Bool

/-- FREE VALUE. The unspecified value of back-buffer cell `cell` after the `resets`-th reset: any 16-bit value,
possibly different per cell (R48, U3). Log entry 5. -/
opaque bbUnspecified (resets cell : Nat) : Pixel

end Config

end Sys2Proof
end

