-- ==== Sys2Proof/Syntax.lean ====
section
/-! DEFINITION. What can be asked of PCBM: its instructions (one constructor per row of spec/opcode_table.json,
00_scope.md R3), the requests they are decoded from (30_encoding.md R90, R99), and the events a run is made of
(00_scope.md R11). -/

namespace Sys2Proof

/-- The instructions: one constructor per row of the opcode table. -/
inductive Instr where
  /-- CONVERT (R130). -/
  | convert
  /-- SET_BACKLIGHT(b) (R154). -/
  | setBacklight (b : Byte)
  /-- WR_CMD (R190). -/
  | wrCmd (wdata : Word)
  /-- RD_CMD (R191). -/
  | rdCmd
  /-- RD_STATUS (R192). -/
  | rdStatus
  /-- WR_STATUS (R193). -/
  | wrStatus (wdata : Word)
  /-- RD_ERR (R194). -/
  | rdErr
  /-- WR_ERR (R195). -/
  | wrErr (wdata : Word)
  /-- RD_FB_BASE (R196). -/
  | rdFbBase
  /-- WR_FB_BASE (R197). -/
  | wrFbBase (wdata : Word)
  /-- RD_CONFIG (R198). -/
  | rdConfig
  /-- WR_CONFIG (R199). -/
  | wrConfig (wdata : Word)
  /-- RD_BRIGHTNESS (R203). -/
  | rdBrightness
  /-- WR_BRIGHTNESS (R203). -/
  | wrBrightness (wdata : Word)
  /-- RD_DUTY (R204). -/
  | rdDuty
  /-- WR_DUTY (R204). -/
  | wrDuty (wdata : Word)
  /-- RD_RSVD (R205). -/
  | rdRsvd
  /-- WR_RSVD (R205). -/
  | wrRsvd (wdata : Word)
  /-- DRAIN_RD of cell `rdIdx` (R200). -/
  | drainRd (rdIdx : Nat)
  /-- DRAIN_START, `drain_busy` 0→1 (R201). -/
  | drainStart
  /-- DRAIN_END, `drain_busy` 1→0 (R201). -/
  | drainEnd
  /-- SLP_ACK (R202). -/
  | slpAck
  deriving DecidableEq, Repr

/-- A decoded command word (30_encoding.md R95). -/
inductive Cmd where
  | convert
  | setBacklight (b : Byte)
  deriving DecidableEq, Repr

/-- The error codes of ERR.CODE (60_exceptions.md R211). The values 5 to 7 are never produced (R25), so they have
no constructor. -/
inductive ErrCode where
  /-- 0 NONE. -/
  | noError
  /-- 1 ILLEGAL_OPCODE. -/
  | illegalOpcode
  /-- 2 RESERVED_BITS. -/
  | reservedBits
  /-- 3 CONV_BUSY. -/
  | convBusy
  /-- 4 BL_BUSY. -/
  | blBusy
  deriving DecidableEq, Repr

/-- The registers of the window (10_state.md R22). -/
inductive Reg where
  | cmd
  | status
  | err
  | fbBase
  | config
  | brightness
  | duty
  | rsvd
  deriving DecidableEq, Repr

/-- One host access to the register window: its width in bytes, its byte offset in the window, and for a write the
written word. Any width and any offset can be asked for; 20_memory.md R66 says which are supported. -/
inductive Access where
  | read (width : Nat) (offset : BitVec 5)
  | write (width : Nat) (offset : BitVec 5) (wdata : Word)
  deriving DecidableEq, Repr

/-- The port events (30_encoding.md R99, format PORT). -/
inductive PortEvent where
  | drainRead (rdIdx : Nat)
  | drainBusyRise
  | drainBusyFall
  | slpAck
  deriving DecidableEq, Repr

/-- What the decoder splits on first, the format (30_encoding.md R99). `cmd w` is the word w written to CMD, seen as
a command word (R90); `mmio (.write 4 0 w)` is the same write seen as a register access. Log entry 4. -/
inductive Request where
  | cmd (word : Word)
  | mmio (access : Access)
  | port (event : PortEvent)
  deriving DecidableEq, Repr

/-- Why a request is not an instruction. -/
inductive DecodeError where
  /-- The command word is illegal or has reserved bits set: R95's Error(code). The machine records it in ERR and
  goes on (R212). -/
  | command (code : ErrCode)
  /-- Not an aligned 32-bit access (R66, R206). -/
  | unsupportedAccess
  /-- A drain read outside 0 .. DST_N-1 (R200). -/
  | drainIndexOutOfRange
  deriving DecidableEq, Repr

/-- One step of one agent (00_scope.md R11). A run's interleaving is a list of these; log entry 1. -/
inductive Event where
  /-- The host, the drain agent or the sleep sequencer acts on PCBM. -/
  | request (r : Request)
  /-- The converter unit has the step (40_converter.md R131, R132). -/
  | convTurn
  /-- The host stores bytes to its memory at `addr`, `addr + 1`, … modulo 2^32 (20_memory.md R74); log entry 18. -/
  | hostStore (addr : Word) (bytes : List Byte)
  /-- The platform maps memory at `addr`, `addr + 1`, … modulo 2^32, with its initial bytes (R74, R242): from then on
  these addresses answer. Log entries 6, 18 and 25. -/
  | mapMemory (addr : Word) (bytes : List Byte)
  /-- Host memory fails to answer the pixel read the converter has to make next: a bus error, or a read that never
  completes (R70). Log entry 24. -/
  | readLost
  /-- The reset input (70_reset_and_hazards.md R240); log entry 16. -/
  | reset
  deriving DecidableEq, Repr

end Sys2Proof
end

