-- ==== Sys2Proof/WellFormed.lean ====
section
/-! DEFINITION. Which instructions and accesses the spec gives a rule. Every other bound on an operand is its
type's. DST_N depends on HREP (R7), which is an argument. -/

namespace Sys2Proof

/-- 0 ≤ rd_idx < DST_N is the one check an instruction's operands need (42_register_access.md R200). -/
def Instr.wellFormed (h : Hrep) : Instr → Bool
  | .drainRd rdIdx => decide (rdIdx < Config.dstN h)
  | .convert | .setBacklight _ => true
  | .wrCmd _ | .rdCmd | .rdStatus | .wrStatus _ | .rdErr | .wrErr _ => true
  | .rdFbBase | .wrFbBase _ | .rdConfig | .wrConfig _ => true
  | .rdBrightness | .wrBrightness _ | .rdDuty | .wrDuty _ | .rdRsvd | .wrRsvd _ => true
  | .drainStart | .drainEnd | .slpAck => true

/-- Only aligned 32-bit accesses are defined (20_memory.md R66). -/
def Access.supported : Access → Bool
  | .read width offset => decide (width = 4) && decide (offset.toNat % 4 = 0)
  | .write width offset _ => decide (width = 4) && decide (offset.toNat % 4 = 0)

/-- A request the decoder has a row for: a supported access, a drain read in range, or any command word or other
port event. (A command word may still be an error of R95.) -/
def Request.supported (h : Hrep) : Request → Bool
  | .cmd _ => true
  | .mmio a => a.supported
  | .port (.drainRead rdIdx) => decide (rdIdx < Config.dstN h)
  | .port .drainBusyRise | .port .drainBusyFall | .port .slpAck => true

end Sys2Proof
end

