-- ==== Sys2Proof/Decode.lean ====
section
/-! DEFINITION. Decoding, total on every request and every command word (30_encoding.md R95, R99), the encoder
written from the same tables, and the words of the opcode table. -/

namespace Sys2Proof

/-- OP, bits [31:24] of a command word (R90). -/
def cmdOp (w : Word) : BitVec 8 := w.extractLsb' 24 8

/-- RSV, bits [23:8] of a command word, must be 0 (R90). -/
def cmdRsv (w : Word) : BitVec 16 := w.extractLsb' 8 16

/-- ARG, bits [7:0] of a command word, not extended, scaled or shifted (R90, R91). -/
def cmdArg (w : Word) : Byte := w.extractLsb' 0 8

/-- R95's decode: a command or an error code. -/
def decodeCmd (w : Word) : Except ErrCode Cmd :=
  if cmdOp w = 0x01#8 then
    if cmdRsv w ≠ 0#16 ∨ cmdArg w ≠ 0#8 then .error .reservedBits else .ok .convert
  else if cmdOp w = 0x02#8 then
    if cmdRsv w ≠ 0#16 then .error .reservedBits else .ok (.setBacklight (cmdArg w))
  else .error .illegalOpcode

/-- The command's own row of the table (R92). -/
def cmdInstr : Cmd → Instr
  | .convert => .convert
  | .setBacklight b => .setBacklight b

/-- A register's offset in the window (R22). -/
def regOffset : Reg → BitVec 5
  | .cmd => 0x00#5
  | .status => 0x04#5
  | .err => 0x08#5
  | .fbBase => 0x0C#5
  | .config => 0x10#5
  | .brightness => 0x14#5
  | .duty => 0x18#5
  | .rsvd => 0x1C#5

/-- The register at an offset; none where the offset is not a multiple of 4 (R22, R66). -/
def regAt (offset : BitVec 5) : Option Reg :=
  if offset = 0x00#5 then some .cmd
  else if offset = 0x04#5 then some .status
  else if offset = 0x08#5 then some .err
  else if offset = 0x0C#5 then some .fbBase
  else if offset = 0x10#5 then some .config
  else if offset = 0x14#5 then some .brightness
  else if offset = 0x18#5 then some .duty
  else if offset = 0x1C#5 then some .rsvd
  else none

/-- The read row of a register (R99). -/
def readInstr : Reg → Instr
  | .cmd => .rdCmd
  | .status => .rdStatus
  | .err => .rdErr
  | .fbBase => .rdFbBase
  | .config => .rdConfig
  | .brightness => .rdBrightness
  | .duty => .rdDuty
  | .rsvd => .rdRsvd

/-- The write row of a register (R99). -/
def writeInstr (wdata : Word) : Reg → Instr
  | .cmd => .wrCmd wdata
  | .status => .wrStatus wdata
  | .err => .wrErr wdata
  | .fbBase => .wrFbBase wdata
  | .config => .wrConfig wdata
  | .brightness => .wrBrightness wdata
  | .duty => .wrDuty wdata
  | .rsvd => .wrRsvd wdata

/-- R99's (access, offset[4:2]); anything but an aligned 32-bit access is refused by name (R206). -/
def decodeAccess : Access → Except DecodeError Instr
  | .read width offset =>
    if width = 4 then
      match regAt offset with
      | some r => .ok (readInstr r)
      | none => .error .unsupportedAccess
    else .error .unsupportedAccess
  | .write width offset wdata =>
    if width = 4 then
      match regAt offset with
      | some r => .ok (writeInstr wdata r)
      | none => .error .unsupportedAccess
    else .error .unsupportedAccess

/-- R99's port rows; a drain read out of range has no rule (R200). -/
def decodePort (h : Hrep) : PortEvent → Except DecodeError Instr
  | .drainRead rdIdx =>
    if rdIdx < Config.dstN h then .ok (.drainRd rdIdx) else .error .drainIndexOutOfRange
  | .drainBusyRise => .ok .drainStart
  | .drainBusyFall => .ok .drainEnd
  | .slpAck => .ok .slpAck

/-- The decoder for replication h: it splits on the format first (R99). -/
def decode (h : Hrep) : Request → Except DecodeError Instr
  | .cmd w =>
    match decodeCmd w with
    | .ok c => .ok (cmdInstr c)
    | .error code => .error (.command code)
  | .mmio a => decodeAccess a
  | .port p => decodePort h p

/-- The command word of a command (R93, R94): OP ++ RSV ++ ARG. -/
def encodeCmd : Cmd → Word
  | .convert => 0x01#8 ++ (0x0000#16 ++ 0x00#8)
  | .setBacklight b => 0x02#8 ++ (0x0000#16 ++ b)

/-- A 32-bit read of a register. -/
def readOf (r : Reg) : Request := .mmio (.read 4 (regOffset r))

/-- A 32-bit write of a register. -/
def writeOf (r : Reg) (wdata : Word) : Request := .mmio (.write 4 (regOffset r) wdata)

/-- The request of an instruction: its row of R92 or R99. -/
def encode : Instr → Request
  | .convert => .cmd (encodeCmd .convert)
  | .setBacklight b => .cmd (encodeCmd (.setBacklight b))
  | .wrCmd d => writeOf .cmd d
  | .rdCmd => readOf .cmd
  | .rdStatus => readOf .status
  | .wrStatus d => writeOf .status d
  | .rdErr => readOf .err
  | .wrErr d => writeOf .err d
  | .rdFbBase => readOf .fbBase
  | .wrFbBase d => writeOf .fbBase d
  | .rdConfig => readOf .config
  | .wrConfig d => writeOf .config d
  | .rdBrightness => readOf .brightness
  | .wrBrightness d => writeOf .brightness d
  | .rdDuty => readOf .duty
  | .wrDuty d => writeOf .duty d
  | .rdRsvd => readOf .rsvd
  | .wrRsvd d => writeOf .rsvd d
  | .drainRd rdIdx => .port (.drainRead rdIdx)
  | .drainStart => .port .drainBusyRise
  | .drainEnd => .port .drainBusyFall
  | .slpAck => .port .slpAck

/-- The access a host makes at an absolute address, where it lies in the window of R22; none outside it. -/
def windowOffset (addr : Word) : Option (BitVec 5) :=
  if (addr - Config.regBase).toNat < Config.windowLen then some ((addr - Config.regBase).setWidth 5) else none

/-- The request an opcode-table word stands for. A row of 32 bits is a command word (R90). A row of one byte is a
register access: bits [4:0] are the offset (the table's mask 0x1F). The table gives a register's read row and its
write row the same five bits; the model takes bit 5 of the byte as the access, 1 a write (of zeros), and reads no
other bit. A row of no bits (a port event) has no word. DESIGN CHOICE, log entry 3. -/
def tableRequest (nbits w : Nat) : Option Request :=
  if nbits = 0 then none
  else if nbits ≤ 8 then
    if w.testBit 5 then some (.mmio (.write 4 (BitVec.ofNat 5 w) 0#32)) else some (.mmio (.read 4 (BitVec.ofNat 5 w)))
  else some (.cmd (BitVec.ofNat 32 w))

/-- What the decoder reads from an opcode-table word; none where it refuses. -/
def decodeTableWord (nbits w : Nat) : Option Instr :=
  match tableRequest nbits w with
  | none => none
  | some r =>
    match decode Config.hrep r with
    | .ok i => some i
    | .error _ => none

end Sys2Proof
end

