-- ==== Sys2Proof/Machine/State.lean ====
section
/-! DEFINITION. The state of PCBM (10_state.md), the reasons a step stops, and the state after reset (R48).
INVENTORY.md, '## State', lists every field with its rule. -/

namespace Sys2Proof.Machine

/-- `conv_state` (R31). -/
inductive ConvState where
  | idle
  | waitDrain
  | converting
  deriving DecidableEq, Repr

/-- `bl_state` (R35). -/
inductive BlState where
  | idle
  | sleepWait
  | wakeWait
  deriving DecidableEq, Repr

/-- The kind of a sleep request (R41), and what CONFIG.SLEEP_ENTRY_KIND selects for a sleep-entry request (R27):
`leaveSleep` is 0 (faithful entry), `enterSleep` is 1 (corrected entry). -/
inductive SleepKind where
  | leaveSleep
  | enterSleep
  deriving DecidableEq, Repr

/-- Host memory: the bytes that are mapped and so answer a read, by address, strictly rising (20_memory.md R60, R70).
Log entry 6. -/
abbrev Memory := List Host.Cell

/-- The back-buffer cells written since reset, by index, strictly rising (10_state.md R34, R48). Log entry 5. -/
abbrev BackBuffer := List (Nat × Pixel)

/-- Everything the spec gives the machine, and the model's own `hrep`, `readHung`, `resetCount` and
`inputs`. -/
structure State where
  /-- `conv_state` (R31). -/
  convState : ConvState
  /-- `conv_idx`, the next source pixel (R32). -/
  convIdx : Nat
  /-- `conv_base`, the running conversion's framebuffer address (R33). -/
  convBase : Word
  /-- `bb`, the back-buffer (R34). -/
  bb : BackBuffer
  /-- FB_BASE.ADDR, bits [31:2]; bits [1:0] are hardwired 0 (R26). -/
  fbAddr : BitVec 30
  /-- CONFIG.SLEEP_ENTRY_KIND (R27). -/
  sleepEntryKind : SleepKind
  /-- ERR.CODE (R25). -/
  errCode : ErrCode
  /-- ERR.OVF (R25). -/
  errOvf : Bool
  /-- `brightness` (R28, R38). -/
  brightness : Byte
  /-- `duty` (R29, R38); the output `pwm_level` is the same storage (R40). -/
  duty : Pixel
  /-- `display_sleep` (R37). -/
  displaySleep : Bool
  /-- `bl_state` (R35). -/
  blState : BlState
  /-- `bl_pending` (R36). -/
  blPending : Byte
  /-- Output `slp_req` (R41). -/
  slpReq : Bool
  /-- Output `slp_kind` (R41). -/
  slpKind : SleepKind
  /-- Input `drain_busy`, a level the drain agent drives (R39). -/
  drainBusy : Bool
  /-- `rdata` of the last host read (42_register_access.md). Log entry 7. -/
  rdata : Word
  /-- `rd_data` of the last drain read (R42, R200). Log entry 7. -/
  rdData : Pixel
  /-- Host memory, which the converter reads (20_memory.md R60). -/
  hostMem : Memory
  /-- The model's own: HREP of this machine (00_scope.md R7), which no step changes. Log entry 13. -/
  hrep : Hrep
  /-- The model's own: the converter's pixel read went unanswered, so it is stuck in CONVERTING until reset (R70, R215,
  R241). Log entry 24. -/
  readHung : Bool
  /-- The model's own: how many resets came before, which names the free values of `bb`. Log entry 5. -/
  resetCount : Nat
  /-- The model's own: the events still to come, the next one first (00_scope.md R11). Log entry 1. -/
  inputs : List Event
  deriving DecidableEq, Repr

/-- PCBM raises no fault: it has no trap (60_exceptions.md R210, R218), and a unit that waits for good is no error
(R215). So there is no constructor. Log entry 20. -/
inductive Fault where
  deriving DecidableEq, Repr

/-- The requests the spec itself refuses, and the arms of `exec` not modelled yet. -/
inductive Refusal where
  /-- Raised by `exec`'s arm of an instruction that has no meaning yet. Safe: the run stops. No arm raises it. -/
  | notModelled (mnemonic : String)
  /-- Raised by decoding a register access that is not aligned 32-bit (R66, R206). Safe: the run stops. -/
  | unsupportedAccess
  /-- Raised by DRAIN_RD with an index outside 0 .. DST_N-1 (R200). Safe: the run stops. -/
  | drainIndexOutOfRange
  /-- Raised by SLP_ACK while `slp_req = 0`: the spec gives the sequencer no such step (R202). Safe: the run
  stops. -/
  | ackWithoutRequest
  deriving DecidableEq, Repr

/-- What a step of this machine answers. -/
abbrev Result := Host.Outcome State Fault Refusal

/-- The state after reset (R48, R240). `drainBusy`, `rdata` and `rdData` are the model's choice (log entries 7, 8),
and so are nothing listed in `hostMem` (log entry 6), `resetCount` (log entry 5) and `inputs` (log entry 1). `hrep` is
R7's value for this hardware. -/
def State.reset : State where
  convState := .idle
  convIdx := 0
  convBase := 0x00000000#32
  bb := []
  fbAddr := 0#30
  sleepEntryKind := .leaveSleep
  errCode := .noError
  errOvf := false
  brightness := 0x00#8
  duty := 0x0000#16
  displaySleep := false
  blState := .idle
  blPending := 0x00#8
  slpReq := false
  slpKind := .leaveSleep
  drainBusy := false
  rdata := 0x00000000#32
  rdData := 0x0000#16
  hostMem := []
  hrep := Config.hrep
  readHung := false
  resetCount := 0
  inputs := []

end Sys2Proof.Machine
end

