-- ==== Sys2Proof/Machine/Ops.lean ====
section
/-! DEFINITION. The named operations: cells listed by number (host memory, the back-buffer), the updates of State,
and recording a command error, which is all that stands in PCBM for taking an exception (60_exceptions.md R210,
R212, R218), with clearing it, which is all that stands for returning from one (R219). -/

namespace Sys2Proof.Machine

/-! ## Lists of cells, strictly rising by number -/

/-- The canonical form: numbers strictly rising. -/
abbrev cellsRising {α : Type} (l : List (Nat × α)) : Prop := l.Pairwise fun p q => p.1 < q.1

/-- Every number is below `n`. -/
abbrev cellsBelow {α : Type} (n : Nat) (l : List (Nat × α)) : Prop := ∀ p ∈ l, p.1 < n

/-- The value listed at `k`. -/
def cellLookup {α : Type} (k : Nat) : List (Nat × α) → Option α
  | [] => none
  | (a, v) :: rest => if k = a then some v else cellLookup k rest

/-- List the value `v` at `k`, in order, in place of one listed there. -/
def cellInsert {α : Type} (k : Nat) (v : α) : List (Nat × α) → List (Nat × α)
  | [] => [(k, v)]
  | (a, w) :: rest =>
    if k < a then (k, v) :: (a, w) :: rest
    else if k = a then (k, v) :: rest
    else (a, w) :: cellInsert k v rest

/-! ## Host memory (20_memory.md) -/

/-- The bytes of host memory, 2^HOST_ADDR_BITS (R60). -/
def memoryLen : Nat := 2 ^ 32

/-- The canonical form of host memory. What an unlisted address reads as is no byte, so no entry equals it. -/
abbrev Memory.wf (m : Memory) : Prop := cellsRising m ∧ cellsBelow memoryLen m

/-- What an unlisted address reads as: it is not mapped and does not answer (R70). DESIGN CHOICE, log entry 6. -/
def memUnlisted : Option Byte := none

/-- The byte at address `a`, none where host memory does not answer. -/
def memByte (m : Memory) (a : Nat) : Option Byte :=
  match cellLookup a m with
  | some b => some b
  | none => memUnlisted

/-- The byte `b` put at address `a`, which answers from then on. -/
def memPut (m : Memory) (a : Nat) (b : Byte) : Memory := cellInsert a b m

/-- The byte `b` stored at address `a` by the host: an address that does not answer is not mapped, and a store to it
changes nothing, so it never starts to answer (R70). DESIGN CHOICE, log entry 6. -/
def memWrite (m : Memory) (a : Nat) (b : Byte) : Memory :=
  match memByte m a with
  | some _ => memPut m a b
  | none => m

/-- `MemRead(addr, n)`: the bytes at addr, addr+1, …, modulo 2^32, all of one instant (R10, R67, R68). None where
some byte does not answer (R70). Whether an address also lies in the register window makes no difference: DESIGN
CHOICE, log entry 23. -/
def memRead (m : Memory) (addr : Word) : Nat → Option (List Byte)
  | 0 => some []
  | n + 1 =>
    match memByte m addr.toNat, memRead m (addr + 1) n with
    | some b, some bs => some (b :: bs)
    | _, _ => none

/-- A host store of the bytes at addr, addr+1, …, modulo 2^32 (R74). -/
def memStore (m : Memory) (addr : Word) : List Byte → Memory
  | [] => m
  | b :: bs => memStore (memWrite m addr.toNat b) (addr + 1) bs

/-- The byte `b` mapped at address `a`, its initial value. An address that answers already is mapped already: it keeps
its byte, so no host write to it is lost, and a read returns the last host write, or the initial value where there was
none (R74). DESIGN CHOICE, log entry 25. -/
def memInit (m : Memory) (a : Nat) (b : Byte) : Memory :=
  match memByte m a with
  | some _ => m
  | none => memPut m a b

/-- The bytes mapped at addr, addr+1, …, modulo 2^32, with their initial values (R74, R242). -/
def memMap (m : Memory) (addr : Word) : List Byte → Memory
  | [] => m
  | b :: bs => memMap (memInit m addr.toNat b) (addr + 1) bs

/-! ## The back-buffer (10_state.md R34) -/

/-- The canonical form of the back-buffer for replication h: strictly rising indexes, each below DST_N. -/
abbrev backBufferWf (h : Hrep) (b : BackBuffer) : Prop := cellsRising b ∧ cellsBelow (Config.dstN h) b

/-- `bb[i]`: the value last written, or the cell's unspecified value where no conversion since reset has written it
(R34, R48). Log entry 5. -/
def bbRead (s : State) (i : Nat) : Pixel :=
  match cellLookup i s.bb with
  | some p => p
  | none => Config.bbUnspecified s.resetCount i

/-- `bb[i] <- p` for each i of a list (R71: cells are written whole). -/
def bbWrite (b : BackBuffer) (cells : List Nat) (p : Pixel) : BackBuffer :=
  cells.foldl (fun acc i => cellInsert i p acc) b

/-! ## Updates of State -/

def State.withInputs (s : State) (es : List Event) : State := { s with inputs := es }

/-- The converter's three variables (R31 to R33). -/
def State.withConv (s : State) (st : ConvState) (idx : Nat) (base : Word) : State :=
  { s with convState := st, convIdx := idx, convBase := base }

def State.withBb (s : State) (b : BackBuffer) : State := { s with bb := b }

def State.withFbAddr (s : State) (a : BitVec 30) : State := { s with fbAddr := a }

def State.withSleepEntryKind (s : State) (k : SleepKind) : State := { s with sleepEntryKind := k }

def State.withErr (s : State) (code : ErrCode) (ovf : Bool) : State := { s with errCode := code, errOvf := ovf }

def State.withBrightness (s : State) (b : Byte) : State := { s with brightness := b }

def State.withDuty (s : State) (d : Pixel) : State := { s with duty := d }

def State.withPending (s : State) (b : Byte) : State := { s with blPending := b }

/-- Raise a sleep request of kind `k` and wait for its acknowledge in `st` (R41). -/
def State.withRequest (s : State) (k : SleepKind) (st : BlState) : State :=
  { s with slpKind := k, slpReq := true, blState := st }

/-- The sleep request is acknowledged: the panel's record becomes `asleep` (R161, R162). -/
def State.withAck (s : State) (asleep : Bool) : State :=
  { s with slpReq := false, displaySleep := asleep, blState := .idle }

def State.withDrainBusy (s : State) (b : Bool) : State := { s with drainBusy := b }

def State.withRdata (s : State) (w : Word) : State := { s with rdata := w }

def State.withRdData (s : State) (p : Pixel) : State := { s with rdData := p }

def State.withHostMem (s : State) (m : Memory) : State := { s with hostMem := m }

def State.withReadHung (s : State) (b : Bool) : State := { s with readHung := b }

/-! ## Command errors (60_exceptions.md) -/

/-- `raise CmdError(code)`: the first code since the last clear is kept, a later one only sets OVF; the command has
no other effect (R212). -/
def raiseCmdError (code : ErrCode) (s : State) : State :=
  if s.errCode = .noError then s.withErr code s.errOvf else s.withErr s.errCode true

/-- Clearing ERR (R195). -/
def clearErr (s : State) : State := s.withErr .noError false

end Sys2Proof.Machine
end

