-- ==== Sys2Proof/Machine/Operands.lean ====
section
/-! DEFINITION. What the two units compute: source addresses and destination cells, pixel packing, and the gamma
table. -/

namespace Sys2Proof.Machine

/-! ## Converter (40_converter.md) -/

/-- Source column of pixel index i (R32). -/
def pixelX (i : Nat) : Nat := i % Config.srcW

/-- Source row of pixel index i (R32). -/
def pixelY (i : Nat) : Nat := i / Config.srcW

/-- The host address of pixel index i: (conv_base + 4*i) mod 2^32 (R68, R127). -/
def pixelAddr (base : Word) (i : Nat) : Word := base + BitVec.ofNat 32 (Config.srcStride * i)

/-- pack(R, G, B), the source's bit recipe at 16 bits (R120). -/
def pack (r g b : Byte) : Pixel :=
  ((r &&& 0xF8#8).setWidth 16 <<< 8) ||| ((g &&& 0xFC#8).setWidth 16 <<< 3) ||| (b >>> 3).setWidth 16

/-- D(x, y), the VREP × HREP cells of source pixel (x, y), in the order R132 writes them (R123). -/
def destCells (h : Hrep) (x y : Nat) : List Nat :=
  (List.range Config.vrep).flatMap fun dy =>
    (List.range h.val).map fun dx => (Config.vrep * y + dy) * Config.dstW h + h.val * x + dx

/-- CMD's FB_BASE operand, FB_BASE[31:2] ++ 0b00 (R26, R130). -/
def fbBaseWord (s : State) : Word := s.fbAddr ++ 0#2

/-! ## Backlight (41_backlight.md) -/

/-- The 256 entries of R152, 16 a row. -/
def gammaRows : List Nat :=
  [0, 0, 0, 0, 1, 1, 2, 3, 4, 6, 8, 10, 13, 16, 19, 24]
  ++ [28, 33, 39, 46, 53, 60, 69, 78, 88, 98, 110, 122, 135, 149, 164, 179]
  ++ [196, 214, 232, 252, 273, 295, 317, 341, 366, 393, 420, 449, 478, 510, 542, 575]
  ++ [610, 647, 684, 723, 764, 806, 849, 894, 940, 988, 1037, 1088, 1140, 1194, 1250, 1307]
  ++ [1366, 1427, 1489, 1553, 1619, 1686, 1756, 1827, 1900, 1975, 2051, 2130, 2210, 2293, 2377, 2463]
  ++ [2552, 2642, 2734, 2829, 2925, 3024, 3124, 3227, 3332, 3439, 3548, 3660, 3774, 3890, 4008, 4128]
  ++ [4251, 4376, 4504, 4634, 4766, 4901, 5038, 5177, 5319, 5464, 5611, 5760, 5912, 6067, 6224, 6384]
  ++ [6546, 6711, 6879, 7049, 7222, 7397, 7576, 7757, 7941, 8128, 8317, 8509, 8704, 8902, 9103, 9307]
  ++ [9514, 9723, 9936, 10151, 10370, 10591, 10816, 11043, 11274, 11507, 11744, 11984, 12227, 12473, 12722, 12975]
  ++ [13230, 13489, 13751, 14017, 14285, 14557, 14833, 15111, 15393, 15678, 15967, 16259, 16554, 16853, 17155, 17461]
  ++ [17770, 18083, 18399, 18719, 19042, 19369, 19700, 20034, 20372, 20713, 21058, 21407, 21759, 22115, 22475, 22838]
  ++ [23206, 23577, 23952, 24330, 24713, 25099, 25489, 25884, 26282, 26683, 27089, 27499, 27913, 28330, 28752, 29178]
  ++ [29608, 30041, 30479, 30921, 31367, 31818, 32272, 32730, 33193, 33660, 34131, 34606, 35085, 35569, 36057, 36549]
  ++ [37046, 37547, 38052, 38561, 39075, 39593, 40116, 40643, 41175, 41711, 42251, 42796, 43346, 43899, 44458, 45021]
  ++ [45588, 46161, 46737, 47319, 47905, 48495, 49091, 49691, 50295, 50905, 51519, 52138, 52761, 53390, 54023, 54661]
  ++ [55303, 55951, 56604, 57261, 57923, 58590, 59262, 59939, 60621, 61308, 62000, 62697, 63399, 64106, 64818, 65535]

/-- GAMMA_LUT[b] (R152). -/
def gammaLut (b : Byte) : Pixel := BitVec.ofNat 16 (gammaRows.getD b.toNat 0)

/-- The request kind of a bit (R27, R41). -/
def sleepKindOfBit (b : Bool) : SleepKind := if b then .enterSleep else .leaveSleep

end Sys2Proof.Machine
end

