-- ==== Sys2Proof/Machine/Flags.lean ====
section
/-! DEFINITION. The words a host read returns, each a live view of state (10_state.md R24 to R29), and the output
`pwm_level` (R40). -/

namespace Sys2Proof.Machine

/-- The bit of a request kind: 0 LEAVE_SLEEP, 1 ENTER_SLEEP (R41). -/
def sleepKindBit : SleepKind → BitVec 1
  | .leaveSleep => 0#1
  | .enterSleep => 1#1

/-- ERR.CODE's three bits (R25, R211). -/
def errCodeBits : ErrCode → BitVec 3
  | .noError => 0#3
  | .illegalOpcode => 1#3
  | .reservedBits => 2#3
  | .convBusy => 3#3
  | .blBusy => 4#3

/-- STATUS bit 0, CONV_BUSY. -/
def convBusyFlag (s : State) : Bool := decide (s.convState ≠ .idle)

/-- STATUS bit 1, CONV_WAIT. -/
def convWaitFlag (s : State) : Bool := decide (s.convState = .waitDrain)

/-- STATUS bit 2, BL_BUSY. -/
def blBusyFlag (s : State) : Bool := decide (s.blState ≠ .idle)

/-- STATUS bit 5, ERR. -/
def errFlag (s : State) : Bool := decide (s.errCode ≠ .noError)

/-- STATUS, bits 7 down to 0 of R24, zero-extended (R192). -/
def statusWord (s : State) : Word :=
  (sleepKindBit s.slpKind ++ BitVec.ofBool s.slpReq ++ BitVec.ofBool (errFlag s) ++ BitVec.ofBool s.drainBusy
    ++ BitVec.ofBool s.displaySleep ++ BitVec.ofBool (blBusyFlag s) ++ BitVec.ofBool (convWaitFlag s)
    ++ BitVec.ofBool (convBusyFlag s)).setWidth 32

/-- ERR: OVF ++ 0b00000 ++ CODE, zero-extended (R194). -/
def errWord (s : State) : Word := (BitVec.ofBool s.errOvf ++ 0#5 ++ errCodeBits s.errCode).setWidth 32

/-- CONFIG (R198). -/
def configWord (s : State) : Word := (sleepKindBit s.sleepEntryKind).setWidth 32

/-- BRIGHTNESS (R203). -/
def brightnessWord (s : State) : Word := s.brightness.setWidth 32

/-- DUTY (R204). -/
def dutyWord (s : State) : Word := s.duty.setWidth 32

/-- Output `pwm_level`, always equal to `duty` (R40, R164). -/
def State.pwmLevel (s : State) : Pixel := s.duty

end Sys2Proof.Machine
end

