-- ==== Sys2Proof/Machine/Ports.lean ====
section
/-! DEFINITION. The port events of the drain agent (42_register_access.md section 2). -/

namespace Sys2Proof.Machine

/-- DRAIN_RD: `rd_data <- bb[rd_idx]`; an index out of range is refused (R200). -/
def execDrainRd (rdIdx : Nat) (s : State) : Result :=
  if rdIdx < Config.dstN s.hrep then .next (s.withRdData (bbRead s rdIdx)) else .refused .drainIndexOutOfRange

/-- DRAIN_START (R201). -/
def execDrainStart (s : State) : Result := .next (s.withDrainBusy true)

/-- DRAIN_END (R201). -/
def execDrainEnd (s : State) : Result := .next (s.withDrainBusy false)

end Sys2Proof.Machine
end

