-- ==== Sys2Proof/Machine/Backlight.lean ====
section
/-! DEFINITION. The backlight unit (41_backlight.md): the acceptance of SET_BACKLIGHT and the two ends of a sleep
transition. -/

namespace Sys2Proof.Machine

/-- The four cases of R154 once the command is accepted and `brightness` written: awake and b ≠ 0 (R156), awake and
b = 0 (R157, R158), asleep and b = 0 (R159), asleep and b ≠ 0 (R160). -/
def applyBrightness (b : Byte) (s : State) : State :=
  if s.displaySleep then
    if b = 0#8 then s.withDuty 0#16 else (s.withPending b).withRequest .leaveSleep .wakeWait
  else
    if b = 0#8 then (s.withDuty 0#16).withRequest s.sleepEntryKind .sleepWait else s.withDuty (gammaLut b)

/-- The acceptance step of SET_BACKLIGHT(b) (R154, R155). -/
def acceptSetBacklight (b : Byte) (s : State) : State :=
  if s.blState = .idle then applyBrightness b (s.withBrightness b) else raiseCmdError .blBusy s

/-- SET_BACKLIGHT(b) (R154). -/
def execSetBacklight (b : Byte) (s : State) : Result := .next (acceptSetBacklight b s)

/-- SLP_ACK in SLEEP_WAIT (R161). -/
def finishSleepEntry (s : State) : State := s.withAck true

/-- SLP_ACK in WAKE_WAIT (R162). -/
def finishWake (s : State) : State := (s.withAck false).withDuty (gammaLut s.blPending)

/-- What an acknowledge of a pending request does (R202). Neither case of R202 applies in IDLE: nothing changes. -/
def acknowledge (s : State) : State :=
  match s.blState with
  | .idle => s
  | .sleepWait => finishSleepEntry s
  | .wakeWait => finishWake s

/-- SLP_ACK, enabled only while `slp_req = 1` (R202). -/
def execSlpAck (s : State) : Result := if s.slpReq then .next (acknowledge s) else .refused .ackWithoutRequest

end Sys2Proof.Machine
end

