-- ==== Sys2Proof/Machine/Converter.lean ====
section
/-! DEFINITION. The converter unit (40_converter.md): the acceptance of CONVERT and the unit's internal steps. -/

namespace Sys2Proof.Machine

/-- The acceptance step of CONVERT (R130). -/
def acceptConvert (s : State) : State :=
  if s.convState = .idle then s.withConv .waitDrain 0 (fbBaseWord s) else raiseCmdError .convBusy s

/-- CONVERT (R130). -/
def execConvert (s : State) : Result := .next (acceptConvert s)

/-- The drain interlock step, enabled while `drain_busy = 0`; the unit holds otherwise (R131). -/
def interlockStep (s : State) : State :=
  if s.drainBusy then s else s.withConv .converting s.convIdx s.convBase

/-- The converter's variables after the pixel step of index i (R132, R133). -/
def pixelDone (s : State) : State :=
  s.withConv (if s.convIdx + 1 = Config.srcN then .idle else .converting) (s.convIdx + 1) s.convBase

/-- The pixel the converter has to read next: its four bytes, none where host memory does not answer (R132, R70). -/
def pixelRead (s : State) : Option (List Byte) := memRead s.hostMem (pixelAddr s.convBase s.convIdx) 4

/-- The pixel step for replication h (R132). Host memory that does not answer leaves the unit stuck for good (R70). -/
def pixelStep (h : Hrep) (s : State) : State :=
  match pixelRead s with
  | some [r, g, b, _pad] =>
    (pixelDone s).withBb (bbWrite s.bb (destCells h (pixelX s.convIdx) (pixelY s.convIdx)) (pack r g b))
  | _ => s.withReadHung true

/-- The converter has a pixel read to make: CONVERTING, not stuck, and an index in R132's range. Log entry 17. -/
def pixelDue (s : State) : Bool :=
  decide (s.convState = .converting) && !s.readHung && decide (s.convIdx < Config.srcN)

/-- A turn of the converter unit: its enabled internal step, or nothing where none is enabled (R131, R132, R215).
Log entries 9, 17 and 24. -/
def convTurn (s : State) : State :=
  match s.convState with
  | .idle => s
  | .waitDrain => interlockStep s
  | .converting => if pixelDue s then pixelStep s.hrep s else s

/-- The pixel read due goes unanswered: the unit is stuck in CONVERTING (R70). With none due there is nothing to lose.
Log entry 24. -/
def loseRead (s : State) : State := if pixelDue s then s.withReadHung true else s

end Sys2Proof.Machine
end

