-- ==== Sys2Proof/Machine/Registers.lean ====
section
/-! DEFINITION. The host's register accesses (42_register_access.md section 1). -/

namespace Sys2Proof.Machine

/-- A command accepted by its unit, or rejected because the unit is busy (R190). -/
def acceptCmd (c : Cmd) (s : State) : State :=
  match c with
  | .convert => acceptConvert s
  | .setBacklight b => acceptSetBacklight b s

/-- Decode, busy check and acceptance, in one step (R190). -/
def writeCmd (wdata : Word) (s : State) : State :=
  match decodeCmd wdata with
  | .error code => raiseCmdError code s
  | .ok c => acceptCmd c s

/-- A read returns the word and changes nothing (R69). -/
def returnWord (w : Word) (s : State) : Result := .next (s.withRdata w)

/-- An ignored write changes nothing (R69). -/
def ignoreWrite (s : State) : Result := .next s

/-- WR_CMD (R190). -/
def execWrCmd (wdata : Word) (s : State) : Result := .next (writeCmd wdata s)

/-- RD_CMD reads 0 (R191). -/
def execRdCmd (s : State) : Result := returnWord 0#32 s

/-- RD_STATUS (R192). -/
def execRdStatus (s : State) : Result := returnWord (statusWord s) s

/-- WR_STATUS is ignored (R193). -/
def execWrStatus (_wdata : Word) (s : State) : Result := ignoreWrite s

/-- RD_ERR (R194). -/
def execRdErr (s : State) : Result := returnWord (errWord s) s

/-- WR_ERR: bit 0 = 1 clears, the other bits are ignored (R195). -/
def execWrErr (wdata : Word) (s : State) : Result := .next (if wdata.getLsbD 0 then clearErr s else s)

/-- RD_FB_BASE (R196). -/
def execRdFbBase (s : State) : Result := returnWord (fbBaseWord s) s

/-- WR_FB_BASE: ADDR takes wdata[31:2] (R197). -/
def execWrFbBase (wdata : Word) (s : State) : Result := .next (s.withFbAddr (wdata.extractLsb' 2 30))

/-- RD_CONFIG (R198). -/
def execRdConfig (s : State) : Result := returnWord (configWord s) s

/-- WR_CONFIG: SLEEP_ENTRY_KIND takes wdata[0] (R199). -/
def execWrConfig (wdata : Word) (s : State) : Result := .next (s.withSleepEntryKind (sleepKindOfBit (wdata.getLsbD 0)))

/-- RD_BRIGHTNESS (R203). -/
def execRdBrightness (s : State) : Result := returnWord (brightnessWord s) s

/-- WR_BRIGHTNESS is ignored (R203). -/
def execWrBrightness (_wdata : Word) (s : State) : Result := ignoreWrite s

/-- RD_DUTY (R204). -/
def execRdDuty (s : State) : Result := returnWord (dutyWord s) s

/-- WR_DUTY is ignored (R204). -/
def execWrDuty (_wdata : Word) (s : State) : Result := ignoreWrite s

/-- RD_RSVD reads 0 (R205). -/
def execRdRsvd (s : State) : Result := returnWord 0#32 s

/-- WR_RSVD is ignored (R205). -/
def execWrRsvd (_wdata : Word) (s : State) : Result := ignoreWrite s

end Sys2Proof.Machine
end

