-- ==== Sys2Proof/Machine/Dispatch.lean ====
section
/-! DEFINITION. One arm per instruction, each a call of its meaning. -/

namespace Sys2Proof.Machine

def exec (i : Instr) (s : State) : Host.Outcome State Fault Refusal :=
  match i with
  | .convert => Sys2Proof.Machine.execConvert s
  | .setBacklight b => Sys2Proof.Machine.execSetBacklight b s
  | .wrCmd wdata => Sys2Proof.Machine.execWrCmd wdata s
  | .rdCmd => Sys2Proof.Machine.execRdCmd s
  | .rdStatus => Sys2Proof.Machine.execRdStatus s
  | .wrStatus wdata => Sys2Proof.Machine.execWrStatus wdata s
  | .rdErr => Sys2Proof.Machine.execRdErr s
  | .wrErr wdata => Sys2Proof.Machine.execWrErr wdata s
  | .rdFbBase => Sys2Proof.Machine.execRdFbBase s
  | .wrFbBase wdata => Sys2Proof.Machine.execWrFbBase wdata s
  | .rdConfig => Sys2Proof.Machine.execRdConfig s
  | .wrConfig wdata => Sys2Proof.Machine.execWrConfig wdata s
  | .rdBrightness => Sys2Proof.Machine.execRdBrightness s
  | .wrBrightness wdata => Sys2Proof.Machine.execWrBrightness wdata s
  | .rdDuty => Sys2Proof.Machine.execRdDuty s
  | .wrDuty wdata => Sys2Proof.Machine.execWrDuty wdata s
  | .rdRsvd => Sys2Proof.Machine.execRdRsvd s
  | .wrRsvd wdata => Sys2Proof.Machine.execWrRsvd wdata s
  | .drainRd rdIdx => Sys2Proof.Machine.execDrainRd rdIdx s
  | .drainStart => Sys2Proof.Machine.execDrainStart s
  | .drainEnd => Sys2Proof.Machine.execDrainEnd s
  | .slpAck => Sys2Proof.Machine.execSlpAck s

end Sys2Proof.Machine
end

