-- ==== Sys2Proof/Machine/Events.lean ====
section
/-! DEFINITION. What one event does to the machine once it is taken from the schedule (00_scope.md R11). -/

namespace Sys2Proof.Machine

/-- A request that is no instruction: R95's Error(code) is recorded in ERR (R96, R212); the others are refused (R200,
R206). -/
def takeDecodeError (e : DecodeError) (s : State) : Result :=
  match e with
  | .command code => .next (raiseCmdError code s)
  | .unsupportedAccess => .refused .unsupportedAccess
  | .drainIndexOutOfRange => .refused .drainIndexOutOfRange

/-- A request is decoded and executed in one step (R90, R190). -/
def runRequest (r : Request) (s : State) : Result :=
  match decode s.hrep r with
  | .ok i => exec i s
  | .error e => takeDecodeError e s

/-- Reset (R240, R241): every piece of PCBM's state takes its value of R48, the back-buffer new unspecified values.
It is the only way out of a hang (R215). HREP is fixed, and host memory, the input `drain_busy`, the events to come
and what earlier reads returned are not PCBM's. Log entry 16. -/
def resetMachine (s : State) : State :=
  { State.reset with
    drainBusy := s.drainBusy, rdata := s.rdata, rdData := s.rdData, hostMem := s.hostMem,
    hrep := s.hrep, resetCount := s.resetCount + 1, inputs := s.inputs }

/-- A host store to its memory (20_memory.md R74). The register window is a space of its own (R60): a store at an
address that also lies in [REG_BASE, REG_BASE+32) acts on host memory alone, and reaches a register only as a register
access. DESIGN CHOICE, log entry 23. -/
def hostStore (addr : Word) (bytes : List Byte) (s : State) : State := s.withHostMem (memStore s.hostMem addr bytes)

/-- The platform maps memory with its initial bytes (R74, R242); bytes that answer already stay as they are. Log
entries 6, 18 and 25. -/
def mapMemory (addr : Word) (bytes : List Byte) (s : State) : State := s.withHostMem (memMap s.hostMem addr bytes)

/-- One event. -/
def runEvent (e : Event) (s : State) : Result :=
  match e with
  | .request r => runRequest r s
  | .convTurn => .next (convTurn s)
  | .hostStore addr bytes => .next (hostStore addr bytes s)
  | .mapMemory addr bytes => .next (mapMemory addr bytes s)
  | .readLost => .next (loseRead s)
  | .reset => .next (resetMachine s)

/-- Put an event before those to come. -/
def scheduleNext (e : Event) (s : State) : State := s.withInputs (e :: s.inputs)

/-- Put an opcode-table word's request before the events to come (log entries 2, 3). -/
def scheduleTableWord (nbits w : Nat) (s : State) : State :=
  match tableRequest nbits w with
  | some r => scheduleNext (.request r) s
  | none => s

end Sys2Proof.Machine
end

