-- ==== Sys2Proof/Machine/Step.lean ====
section
/-! DEFINITION. One step: the next event of the schedule is taken and run (00_scope.md R11). -/

namespace Sys2Proof.Machine

/-- The next event is taken from `inputs` and run on the rest of the state. With none to come no agent acts, and the
state stays as it is (log entry 10). -/
def step (s : State) : Host.Outcome State Fault Refusal :=
  match s.inputs with
  | [] => .next s
  | e :: rest => runEvent e (s.withInputs rest)

/-- The state whose very next step runs the opcode-table word's instruction (log entry 2). -/
def State.withFetchWord (s : State) (nbits w : Nat) : State := scheduleTableWord nbits w s

end Sys2Proof.Machine
end

