-- ==== Sys2Proof/Safety.lean ====
section
/-! DEFINITION. What claims say of runs: the invariants of the spec, the partner contracts and the fairness it
states, and running several steps. The machine itself enforces no contract (60_exceptions.md R216). -/

namespace Sys2Proof.Machine

/-- The invariants of PCBM: R44, R45, R46, the hardwired bits of `conv_base` (R33), and the canonical forms of host
memory and the back-buffer. -/
structure State.Inv (s : State) : Prop where
  /-- R44. -/
  sleep_duty : s.displaySleep = true → s.duty = 0#16
  /-- R45, first: `bl_state = IDLE ⇔ slp_req = 0`. -/
  idle_iff_no_request : s.blState = .idle ↔ s.slpReq = false
  /-- R45, second. -/
  sleep_wait : s.blState = .sleepWait → s.displaySleep = false ∧ s.duty = 0#16 ∧ s.brightness = 0#8
  /-- R45, third. -/
  wake_wait : s.blState = .wakeWait →
    s.displaySleep = true ∧ s.duty = 0#16 ∧ s.slpKind = .leaveSleep ∧ s.blPending = s.brightness ∧ s.blPending ≠ 0#8
  /-- R45, fourth. -/
  idle_duty : s.blState = .idle → s.duty = gammaLut s.brightness
  /-- R46, first. -/
  conv_idle : s.convState = .idle → s.convIdx = 0 ∨ s.convIdx = Config.srcN
  /-- R46, second. -/
  conv_wait : s.convState = .waitDrain → s.convIdx = 0
  /-- R46, third. -/
  converting : s.convState = .converting → s.convIdx < Config.srcN
  /-- R33: bits [1:0] of `conv_base` are always 0. -/
  base_aligned : s.convBase.toNat % 4 = 0
  /-- Host memory is in its canonical form. -/
  mem_wf : Memory.wf s.hostMem
  /-- The back-buffer is in its canonical form. -/
  bb_wf : backBufferWf s.hrep s.bb
  /-- R70: the unit is stuck in CONVERTING and nowhere else. -/
  hung_converting : s.readHung = true → s.convState = .converting

/-- The register an event writes to, with the data, where it is a supported register write. -/
def eventWrites (r : Reg) (e : Event) : Prop := ∃ d, e = .request (writeOf r d)

/-- The event is a command: a write to CMD, in either format (R90, R99). -/
def isCommand (e : Event) : Prop := (∃ w, e = .request (.cmd w)) ∨ eventWrites .cmd e

/-- Clause 1 of the drain agent's contract (70_reset_and_hazards.md R246): `drain_busy` is raised only while
CONV_BUSY = 0. -/
def drainContract (s : State) (e : Event) : Prop := e = .request (.port .drainBusyRise) → s.convState = .idle

/-- The event neither stores to nor maps a byte of the framebuffer at `base` (20_memory.md R61, R76). -/
def avoidsFramebuffer (base : Word) (e : Event) : Prop :=
  ∀ addr bytes, e = .hostStore addr bytes ∨ e = .mapMemory addr bytes →
    ∀ k < bytes.length, ∀ i < Config.srcN, ∀ j < Config.srcStride,
      addr + BitVec.ofNat 32 k ≠ pixelAddr base i + BitVec.ofNat 32 j

/-- The byte of pixel i's channel j (0 R, 1 G, 2 B, 3 pad) of the framebuffer at `base` (R63). -/
def pixelByte (s : State) (base : Word) (i j : Nat) : Option Byte :=
  memByte s.hostMem (pixelAddr base i + BitVec.ofNat 32 j).toNat

/-- `n` steps, stopping where one is refused. -/
def run : Nat → State → Result
  | 0, s => .next s
  | n + 1, s =>
    match step s with
    | .next t => run n t
    | .fault f => .fault f
    | .refused r => .refused r

/-- The converter has an enabled internal step (R131, R132, R70). -/
def converterEnabled (s : State) : Bool :=
  match s.convState with
  | .idle => false
  | .waitDrain => !s.drainBusy
  | .converting => pixelDue s && (pixelRead s).isSome

/-- How many internal steps the converter takes in `n` steps of the machine (R133): its turns that find one enabled. -/
def converterSteps : Nat → State → Nat
  | 0, _ => 0
  | n + 1, s =>
    match step s with
    | .next t => (if s.inputs.head? = some .convTurn ∧ converterEnabled s = true then 1 else 0) + converterSteps n t
    | .fault _ | .refused _ => 0

/-! ## Fairness (70_reset_and_hazards.md R254): assumptions a claim that something ends may have as premises, over a
schedule without an end. The machine takes no such step on its own. -/

/-- The state after the first `n` events of a schedule without an end, given to the machine one by one (R11). -/
def stateAt (schedule : Nat → Event) (s : State) : Nat → Result
  | 0 => .next s
  | n + 1 =>
    match stateAt schedule s n with
    | .next u => step (u.withInputs [schedule n])
    | .fault f => .fault f
    | .refused r => .refused r

/-- R254, first: the converter takes its enabled steps eventually. A step that is enabled is taken later, or is no
longer enabled. -/
def ConverterFair (schedule : Nat → Event) (s : State) : Prop :=
  ∀ n u, stateAt schedule s n = .next u → converterEnabled u = true →
    ∃ m, n ≤ m ∧ (schedule m = .convTurn ∨ ∃ v, stateAt schedule s m = .next v ∧ converterEnabled v = false)

/-- R254, second: the drain agent eventually raises DRAIN_END. -/
def DrainFair (schedule : Nat → Event) (s : State) : Prop :=
  ∀ n u, stateAt schedule s n = .next u → u.drainBusy = true →
    ∃ m, n ≤ m ∧ schedule m = .request (.port .drainBusyFall)

/-- R254, third: the sleep sequencer eventually raises SLP_ACK, unless a reset withdraws the request (R241). -/
def SequencerFair (schedule : Nat → Event) (s : State) : Prop :=
  ∀ n u, stateAt schedule s n = .next u → u.slpReq = true →
    ∃ m, n ≤ m ∧ (schedule m = .request (.port .slpAck) ∨ schedule m = .reset)

end Sys2Proof.Machine
end

