-- ==== Sys2Proof/Certificates/Slice0/Obligations.lean ====
section
/-! DEFINITION. The statements for the provers. Each docstring names the rules of spec/ it rests on. -/

open Sys2Proof Sys2Proof.Machine

/-! ## Encoding -/

/-- R102: the nine worked words. -/
def Obligations.WorkedCommandWords : Prop :=
  ∀ h : Hrep,
    decode h (.cmd 0x01000000#32) = .ok .convert ∧
    decode h (.cmd 0x02000000#32) = .ok (.setBacklight 0#8) ∧
    decode h (.cmd 0x02000080#32) = .ok (.setBacklight 128#8) ∧
    decode h (.cmd 0x020000FF#32) = .ok (.setBacklight 255#8) ∧
    decode h (.cmd 0x01000001#32) = .error (.command .reservedBits) ∧
    decode h (.cmd 0x02010000#32) = .error (.command .reservedBits) ∧
    decode h (.cmd 0x00000000#32) = .error (.command .illegalOpcode) ∧
    decode h (.cmd 0x03FFFFFF#32) = .error (.command .illegalOpcode) ∧
    decode h (.cmd 0xFF000000#32) = .error (.command .illegalOpcode)

/-- R93, R94, R95: which of the 2^32 words decodes to what, each as arithmetic on the word. -/
def Obligations.CommandWordDecodesByRule95 : Prop :=
  ∀ w : Word,
    (decodeCmd w = .ok .convert ↔ w = 0x01000000#32) ∧
    (∀ b : Byte, decodeCmd w = .ok (.setBacklight b) ↔ w = 0x02000000#32 + b.setWidth 32) ∧
    (decodeCmd w = .error .illegalOpcode ↔ w.toNat / 2 ^ 24 ≠ 1 ∧ w.toNat / 2 ^ 24 ≠ 2) ∧
    (decodeCmd w = .error .reservedBits ↔
      (w.toNat / 2 ^ 24 = 1 ∧ w.toNat % 2 ^ 24 ≠ 0) ∨ (w.toNat / 2 ^ 24 = 2 ∧ w.toNat / 2 ^ 8 % 2 ^ 16 ≠ 0))

/-- R99: the sixteen register rows, each at its literal offset and for every written word, the port rows, what is
refused, and WR_CMD's decoding of its word. -/
def Obligations.RegisterAndPortRowsDecodeByRule99 : Prop :=
  (∀ (h : Hrep) (d : Word),
    decode h (.mmio (.write 4 0x00#5 d)) = .ok (.wrCmd d) ∧ decode h (.mmio (.read 4 0x00#5)) = .ok .rdCmd ∧
    decode h (.mmio (.read 4 0x04#5)) = .ok .rdStatus ∧ decode h (.mmio (.write 4 0x04#5 d)) = .ok (.wrStatus d) ∧
    decode h (.mmio (.read 4 0x08#5)) = .ok .rdErr ∧ decode h (.mmio (.write 4 0x08#5 d)) = .ok (.wrErr d) ∧
    decode h (.mmio (.read 4 0x0C#5)) = .ok .rdFbBase ∧ decode h (.mmio (.write 4 0x0C#5 d)) = .ok (.wrFbBase d) ∧
    decode h (.mmio (.read 4 0x10#5)) = .ok .rdConfig ∧ decode h (.mmio (.write 4 0x10#5 d)) = .ok (.wrConfig d) ∧
    decode h (.mmio (.read 4 0x14#5)) = .ok .rdBrightness ∧
    decode h (.mmio (.write 4 0x14#5 d)) = .ok (.wrBrightness d) ∧
    decode h (.mmio (.read 4 0x18#5)) = .ok .rdDuty ∧ decode h (.mmio (.write 4 0x18#5 d)) = .ok (.wrDuty d) ∧
    decode h (.mmio (.read 4 0x1C#5)) = .ok .rdRsvd ∧ decode h (.mmio (.write 4 0x1C#5 d)) = .ok (.wrRsvd d)) ∧
  (∀ (h : Hrep) (i : Nat), i < 38400 * h.val → decode h (.port (.drainRead i)) = .ok (.drainRd i)) ∧
  (∀ h : Hrep, decode h (.port .drainBusyRise) = .ok .drainStart ∧ decode h (.port .drainBusyFall) = .ok .drainEnd ∧
    decode h (.port .slpAck) = .ok .slpAck) ∧
  (∀ (h : Hrep) (width : Nat) (offset : BitVec 5) (d : Word), width ≠ 4 ∨ offset.toNat % 4 ≠ 0 →
    decode h (.mmio (.read width offset)) = .error .unsupportedAccess ∧
    decode h (.mmio (.write width offset d)) = .error .unsupportedAccess) ∧
  ∀ (w : Word) (s : State),
    (∀ c, decodeCmd w = .ok c → exec (.wrCmd w) s = exec (cmdInstr c) s) ∧
    ∀ code, decodeCmd w = .error code → exec (.wrCmd w) s = .next (raiseCmdError code s)

/-- 30_encoding.md sections 1 and 2: decoding gives back every well-formed instruction, whatever its operands, for
either HREP. -/
def Obligations.DecodeOfEncodeIsTheInstruction : Prop :=
  ∀ (h : Hrep) (i : Instr), i.wellFormed h = true → decode h (encode i) = .ok i

/-- 30_encoding.md sections 1 and 2, the other direction: a request that decodes to an instruction is that
instruction's one request, and only well-formed instructions are decoded. -/
def Obligations.EncodeOfDecodeIsTheRequest : Prop :=
  ∀ (h : Hrep) (r : Request) (i : Instr), decode h r = .ok i → i.wellFormed h = true ∧ encode i = r

/-- R206: an access that is not an aligned 32-bit one is refused, read or write, in every state. -/
def Obligations.UnsupportedAccessIsRefused : Prop :=
  ∀ (s : State) (rest : List Event) (width : Nat) (offset : BitVec 5) (d : Word),
    width ≠ 4 ∨ offset.toNat % 4 ≠ 0 →
    step { s with inputs := .request (.mmio (.read width offset)) :: rest } = .refused .unsupportedAccess ∧
    step { s with inputs := .request (.mmio (.write width offset d)) :: rest } = .refused .unsupportedAccess

/-! ## Steps and commands -/

/-- R11, R99: a step takes the next event and, where it is a request that decodes to an instruction, runs that
instruction on the state with the event taken away. -/
def Obligations.StepRunsTheDecodedInstruction : Prop :=
  ∀ (s : State) (r : Request) (rest : List Event) (i : Instr),
    s.inputs = .request r :: rest → decode s.hrep r = .ok i → step s = exec i { s with inputs := rest }

/-- R90, R99 (log entry 4): a command word seen in format CMD and the same word written to CMD by an access are the
same step. -/
def Obligations.CommandFormatIsTheWriteToCmd : Prop :=
  ∀ (s : State) (rest : List Event) (w : Word),
    step { s with inputs := .request (.cmd w) :: rest } =
      step { s with inputs := .request (.mmio (.write 4 0x00#5 w)) :: rest }

/-- R212: a command error keeps the first code, sets OVF on a later one, and does nothing else; the same for each of
the four causes of R211. ERR is cleared only by WR_ERR and by reset. -/
def Obligations.CommandErrorIsRecordedInErrOnly : Prop :=
  (∀ (s : State) (w : Word) (code : ErrCode), decodeCmd w = .error code →
    exec (.wrCmd w) s =
      .next (if s.errCode = .noError then { s with errCode := code } else { s with errOvf := true })) ∧
  (∀ s : State, s.convState ≠ .idle →
    exec .convert s =
      .next (if s.errCode = .noError then { s with errCode := .convBusy } else { s with errOvf := true })) ∧
  (∀ (s : State) (b : Byte), s.blState ≠ .idle →
    exec (.setBacklight b) s =
      .next (if s.errCode = .noError then { s with errCode := .blBusy } else { s with errOvf := true })) ∧
  (∀ (s t : State) (e : Event) (rest : List Event), s.inputs = e :: rest → step s = .next t →
    e ≠ .reset → ¬ eventWrites .err e → s.errCode ≠ .noError →
    t.errCode = s.errCode ∧ (s.errOvf = true → t.errOvf = true))

/-- R213: exactly one code per CMD write: illegal opcode, then reserved bits, then busy. -/
def Obligations.ErrorPriorityOfOneCmdWrite : Prop :=
  ∀ (s : State) (w : Word), s.errCode = .noError →
    ∃ t, exec (.wrCmd w) s = .next t ∧ t.errOvf = s.errOvf ∧
      t.errCode =
        (if w.toNat / 2 ^ 24 ≠ 1 ∧ w.toNat / 2 ^ 24 ≠ 2 then .illegalOpcode
        else if w.toNat / 2 ^ 24 = 1 ∧ w.toNat % 2 ^ 24 ≠ 0 then .reservedBits
        else if w.toNat / 2 ^ 24 = 2 ∧ w.toNat / 2 ^ 8 % 2 ^ 16 ≠ 0 then .reservedBits
        else if w.toNat / 2 ^ 24 = 1 ∧ s.convState ≠ .idle then .convBusy
        else if w.toNat / 2 ^ 24 = 2 ∧ s.blState ≠ .idle then .blBusy
        else .noError)

/-- R190 (42_register_access.md section 1): WR_CMD completes with the effect of the command its word is, where the
command's unit is idle. -/
def Obligations.WriteCmdRunsTheCommand : Prop :=
  (∀ s : State, s.convState = .idle →
    exec (.wrCmd 0x01000000#32) s =
      .next { s with convState := .waitDrain, convIdx := 0, convBase := s.fbAddr ++ 0#2 }) ∧
  (∀ (s : State) (b : Byte), s.blState = .idle →
    ∃ t, exec (.wrCmd (0x02000000#32 + b.setWidth 32)) s = .next t ∧ exec (.setBacklight b) s = .next t ∧
      t.brightness = b ∧ t.errCode = s.errCode ∧ t.errOvf = s.errOvf)

/-- R130 (40_converter.md section 3): an idle converter accepts CONVERT whatever `drain_busy` and the backlight unit,
snapshots FB_BASE, and shows CONV_BUSY and CONV_WAIT; nothing else changes. The last clause is the rule's example. -/
def Obligations.ConvertIsAcceptedWhenIdle : Prop :=
  (∀ s : State, s.convState = .idle →
    ∃ t, exec .convert s = .next t ∧
      t = { s with convState := .waitDrain, convIdx := 0, convBase := s.fbAddr ++ 0#2 } ∧
      (statusWord t).getLsbD 0 = true ∧ (statusWord t).getLsbD 1 = true) ∧
  (∀ s : State, s.convState = .idle → s.fbAddr = 0x08000000#30 →
    ∃ t, exec .convert s = .next t ∧ t.convBase = 0x20000000#32 ∧ t.convIdx = 0 ∧ t.convState = .waitDrain)

/-- R155 to R160: the four cases of an accepted SET_BACKLIGHT(b), each the whole next state. -/
def Obligations.SetBacklightCases : Prop :=
  ∀ (s : State) (b : Byte), s.blState = .idle →
    (s.displaySleep = false → b ≠ 0#8 →
      exec (.setBacklight b) s = .next { s with brightness := b, duty := gammaLut b }) ∧
    (s.displaySleep = false → b = 0#8 →
      exec (.setBacklight b) s =
        .next { s with
          brightness := b, duty := 0#16, slpKind := s.sleepEntryKind, slpReq := true, blState := .sleepWait }) ∧
    (s.displaySleep = true → b = 0#8 →
      exec (.setBacklight b) s = .next { s with brightness := b, duty := 0#16 }) ∧
    (s.displaySleep = true → b ≠ 0#8 →
      exec (.setBacklight b) s =
        .next { s with
          brightness := b, blPending := b, slpKind := .leaveSleep, slpReq := true, blState := .wakeWait })

/-- R161, R162: an acknowledge ends a sleep entry or a wake, each the whole next state; the duty of a sleep entry is
already 0 in every state that meets the invariant. -/
def Obligations.AcknowledgeEndsTheTransition : Prop :=
  (∀ s : State, s.slpReq = true → s.blState = .sleepWait →
    exec .slpAck s = .next { s with slpReq := false, displaySleep := true, blState := .idle }) ∧
  (∀ s : State, s.Inv → s.blState = .sleepWait → s.duty = 0#16) ∧
  (∀ s : State, s.slpReq = true → s.blState = .wakeWait →
    exec .slpAck s =
      .next { s with slpReq := false, displaySleep := false, duty := gammaLut s.blPending, blState := .idle })

/-- R202 (42_register_access.md section 3): the sequencer has no acknowledge step while no request is out. -/
def Obligations.AcknowledgeNeedsARequest : Prop :=
  ∀ s : State, s.slpReq = false → exec .slpAck s = .refused .ackWithoutRequest

/-- R166: from an awake idle unit, `setbl 0`, SLP_ACK, `setbl 255`, SLP_ACK takes display_sleep through 0, 1, 0 with
two requests, the first of CONFIG's kind and the second LEAVE_SLEEP; a further `setbl 255` raises none. -/
def Obligations.SleepRoundTrip : Prop :=
  ∀ (s : State) (rest : List Event), s.blState = .idle → s.displaySleep = false → s.slpReq = false →
    s.inputs = .request (.cmd 0x02000000#32) :: .request (.port .slpAck) :: .request (.cmd 0x020000FF#32) ::
      .request (.port .slpAck) :: .request (.cmd 0x020000FF#32) :: rest →
    ∃ t1 t2 t3 t4 t5, run 1 s = .next t1 ∧ run 2 s = .next t2 ∧ run 3 s = .next t3 ∧ run 4 s = .next t4 ∧
      run 5 s = .next t5 ∧
      (t1.slpReq = true ∧ t1.slpKind = s.sleepEntryKind ∧ t1.displaySleep = false ∧ t1.duty = 0#16) ∧
      (t2.slpReq = false ∧ t2.displaySleep = true ∧ t2.duty = 0#16) ∧
      (t3.slpReq = true ∧ t3.slpKind = .leaveSleep ∧ t3.displaySleep = true ∧ t3.duty = 0#16) ∧
      (t4.slpReq = false ∧ t4.displaySleep = false ∧ t4.duty = 65535#16 ∧ t4.blState = .idle) ∧
      (t5.slpReq = false ∧ t5.displaySleep = false ∧ t5.duty = 65535#16 ∧ t5.blState = .idle)

/-! ## Registers -/

/-- R24: every bit of STATUS, the reset value for either level of `drain_busy`, and the ignored write. -/
def Obligations.StatusIsALiveView : Prop :=
  (∀ s : State, ∃ v : Word, exec .rdStatus s = .next { s with rdata := v } ∧
    (v.getLsbD 0 = true ↔ s.convState ≠ .idle) ∧
    (v.getLsbD 1 = true ↔ s.convState = .waitDrain) ∧
    (v.getLsbD 2 = true ↔ s.blState ≠ .idle) ∧
    v.getLsbD 3 = s.displaySleep ∧
    v.getLsbD 4 = s.drainBusy ∧
    (v.getLsbD 5 = true ↔ s.errCode ≠ .noError) ∧
    v.getLsbD 6 = s.slpReq ∧
    (v.getLsbD 7 = true ↔ s.slpKind = .enterSleep) ∧
    ∀ k, 8 ≤ k → v.getLsbD k = false) ∧
  (∀ (s : State) (d : Word), exec (.wrStatus d) s = .next s) ∧
  (∀ s : State, exec .rdStatus { State.reset with drainBusy := s.drainBusy } =
    .next { State.reset with drainBusy := s.drainBusy, rdata := if s.drainBusy then 0x10#32 else 0#32 })

/-- R194: the word RD_ERR returns, code by code, and the rule's example: after two rejected commands the first of
which was an illegal opcode, 0x101. -/
def Obligations.ErrReadsCodeAndOverflow : Prop :=
  (∀ s : State, ∃ v : Word, exec .rdErr s = .next { s with rdata := v } ∧
    v.toNat = (if s.errOvf then 256 else 0) +
      (match s.errCode with
        | .noError => 0 | .illegalOpcode => 1 | .reservedBits => 2 | .convBusy => 3 | .blBusy => 4)) ∧
  (∀ (s : State) (w1 w2 : Word) (code : ErrCode), s.errCode = .noError →
    decodeCmd w1 = .error .illegalOpcode → decodeCmd w2 = .error code →
    ∃ t1 t2, exec (.wrCmd w1) s = .next t1 ∧ exec (.wrCmd w2) t1 = .next t2 ∧
      exec .rdErr t2 = .next { t2 with rdata := 0x101#32 })

/-- R195 (42_register_access.md section 1): a write with bit 0 = 1 clears CODE and OVF and so STATUS.ERR; the other
bits are ignored; a write with bit 0 = 0 changes nothing. -/
def Obligations.ErrClearsByBitZero : Prop :=
  ∀ (s : State) (d : Word),
    (d.toNat % 2 = 1 → exec (.wrErr d) s = .next { s with errCode := .noError, errOvf := false } ∧
      (statusWord { s with errCode := .noError, errOvf := false }).getLsbD 5 = false) ∧
    (d.toNat % 2 = 0 → exec (.wrErr d) s = .next s)

/-- R196, R197: FB_BASE takes bits [31:2] of the write in any state, reads back with bits [1:0] 0, leaves the running
conversion alone, and is what the next CONVERT snapshots. -/
def Obligations.FramebufferBaseHoldsBits31To2 : Prop :=
  (∀ s : State, exec .rdFbBase s = .next { s with rdata := s.fbAddr ++ 0#2 }) ∧
  ∀ (s : State) (d : Word),
    ∃ t, exec (.wrFbBase d) s = .next t ∧ t = { s with fbAddr := t.fbAddr } ∧
      (∃ v : Word, exec .rdFbBase t = .next { t with rdata := v } ∧ v.toNat = d.toNat - d.toNat % 4 ∧
        (s.convState = .idle → ∃ u, exec .convert t = .next u ∧ u.convBase = v))

/-- R198, R199: CONFIG takes bit 0 of the write in any state and reads it back alone; a pending request keeps its
kind. -/
def Obligations.ConfigHoldsBitZero : Prop :=
  (∀ s : State, exec .rdConfig s =
    .next { s with rdata := if s.sleepEntryKind = .enterSleep then 1#32 else 0#32 }) ∧
  exec .rdConfig State.reset = .next { State.reset with rdata := 0#32 } ∧
  ∀ (s : State) (d : Word),
    ∃ t, exec (.wrConfig d) s = .next t ∧ t = { s with sleepEntryKind := t.sleepEntryKind } ∧
      exec .rdConfig t = .next { t with rdata := BitVec.ofNat 32 (d.toNat % 2) }

/-- R203, R204: the two read-only registers, also right after an accepted SET_BACKLIGHT (BRIGHTNESS even while a wake
is pending), and their ignored writes. -/
def Obligations.BrightnessAndDutyRegisters : Prop :=
  (∀ s : State, exec .rdBrightness s = .next { s with rdata := s.brightness.setWidth 32 }) ∧
  (∀ s : State, exec .rdDuty s = .next { s with rdata := s.duty.setWidth 32 }) ∧
  (∀ (s : State) (d : Word), exec (.wrBrightness d) s = .next s ∧ exec (.wrDuty d) s = .next s) ∧
  (∀ (s : State) (b : Byte), s.blState = .idle →
    ∃ t, exec (.setBacklight b) s = .next t ∧ exec .rdBrightness t = .next { t with rdata := b.setWidth 32 }) ∧
  (∀ s : State, s.blState = .idle → s.displaySleep = false →
    ∃ t, exec (.setBacklight 255#8) s = .next t ∧ exec .rdDuty t = .next { t with rdata := 0xFFFF#32 })

/-- R30, R191, R193, R205: CMD and offset 0x1C read 0; writes to STATUS and offset 0x1C are ignored. -/
def Obligations.ReservedReadsAndWrites : Prop :=
  ∀ (s : State) (d : Word),
    exec .rdCmd s = .next { s with rdata := 0#32 } ∧ exec .rdRsvd s = .next { s with rdata := 0#32 } ∧
    exec (.wrStatus d) s = .next s ∧ exec (.wrRsvd d) s = .next s

/-! ## Ports -/

/-- R200 (42_register_access.md section 2): a drain read of a cell in range returns the cell as it stands and changes
nothing else, in every state; an index out of range is refused. DST_N is 38400 × HREP (R7). -/
def Obligations.DrainReadReturnsTheCell : Prop :=
  ∀ (s : State) (i : Nat),
    (i < 38400 * s.hrep.val → exec (.drainRd i) s = .next { s with rdData := bbRead s i }) ∧
    (38400 * s.hrep.val ≤ i → exec (.drainRd i) s = .refused .drainIndexOutOfRange)

/-- R201 (42_register_access.md section 2): the drain agent's events set the level in any state, STATUS.DRAIN_BUSY
follows, and a DRAIN_END enables the interlock step. -/
def Obligations.DrainEventsSetTheLevel : Prop :=
  (∀ s : State, exec .drainStart s = .next { s with drainBusy := true } ∧
    (statusWord { s with drainBusy := true }).getLsbD 4 = true) ∧
  (∀ s : State, exec .drainEnd s = .next { s with drainBusy := false } ∧
    (statusWord { s with drainBusy := false }).getLsbD 4 = false) ∧
  (∀ (s : State) (rest : List Event), s.convState = .waitDrain →
    s.inputs = .request (.port .drainBusyFall) :: .convTurn :: rest →
    ∃ t, run 2 s = .next t ∧ t.convState = .converting)

/-! ## Converter -/

/-- R131: the interlock step is enabled only while `drain_busy = 0`; in CONVERTING the level is not sampled. -/
def Obligations.InterlockWaitsForTheDrain : Prop :=
  (∀ (s : State) (rest : List Event), s.inputs = .convTurn :: rest → s.convState = .waitDrain →
    s.drainBusy = false → step s = .next { s with inputs := rest, convState := .converting }) ∧
  (∀ (s : State) (rest : List Event), s.inputs = .convTurn :: rest → s.convState = .waitDrain →
    s.drainBusy = true → step s = .next { s with inputs := rest }) ∧
  (∀ (s t : State) (rest : List Event) (level : Bool), s.inputs = .convTurn :: rest → s.convState = .converting →
    step s = .next t → step { s with drainBusy := level } = .next { t with drainBusy := level })

/-- R68, R127: pixel i is read at (conv_base + 4*i) mod 2^32, its four bytes one after the other; rows lie top row
first and columns left to right; and no pixel read is misaligned. -/
def Obligations.PixelsAreReadAtBasePlusFourI : Prop :=
  (∀ (s : State) (r g b pad : Byte), pixelRead s = some [r, g, b, pad] ↔
    memByte s.hostMem ((s.convBase.toNat + 4 * s.convIdx) % 2 ^ 32) = some r ∧
    memByte s.hostMem ((s.convBase.toNat + 4 * s.convIdx + 1) % 2 ^ 32) = some g ∧
    memByte s.hostMem ((s.convBase.toNat + 4 * s.convIdx + 2) % 2 ^ 32) = some b ∧
    memByte s.hostMem ((s.convBase.toNat + 4 * s.convIdx + 3) % 2 ^ 32) = some pad) ∧
  (∀ (base : Word) (i : Nat), (pixelAddr base i).toNat = (base.toNat + 4 * i) % 2 ^ 32) ∧
  (∀ (base : Word) (x y : Nat), x < 160 → y < 120 → pixelX (y * 160 + x) = x ∧ pixelY (y * 160 + x) = y ∧
    (pixelAddr base (y * 160 + x)).toNat = (base.toNat + 4 * (y * 160 + x)) % 2 ^ 32) ∧
  ∀ (s : State) (i : Nat), s.Inv → (pixelAddr s.convBase i).toNat % 4 = 0

/-- R132: one pixel step writes pack(R, G, B) to the 2 × HREP cells of its source pixel and no other cell, and advances
the index; the last one sets IDLE. -/
def Obligations.PixelStepConvertsOnePixel : Prop :=
  ∀ (s : State) (rest : List Event) (r g b pad : Byte),
    s.inputs = .convTurn :: rest → s.convState = .converting → s.readHung = false → s.convIdx < 19200 →
    memByte s.hostMem ((s.convBase.toNat + 4 * s.convIdx) % 2 ^ 32) = some r →
    memByte s.hostMem ((s.convBase.toNat + 4 * s.convIdx + 1) % 2 ^ 32) = some g →
    memByte s.hostMem ((s.convBase.toNat + 4 * s.convIdx + 2) % 2 ^ 32) = some b →
    memByte s.hostMem ((s.convBase.toNat + 4 * s.convIdx + 3) % 2 ^ 32) = some pad →
    ∃ t, step s = .next t ∧
      t = { s with
        inputs := rest, bb := t.bb, convIdx := s.convIdx + 1,
        convState := if s.convIdx + 1 = 19200 then .idle else .converting } ∧
      (∀ dy < 2, ∀ dx < s.hrep.val,
        bbRead t ((2 * (s.convIdx / 160) + dy) * (160 * s.hrep.val) + s.hrep.val * (s.convIdx % 160) + dx) =
          pack r g b) ∧
      ∀ c, (∀ dy < 2, ∀ dx < s.hrep.val,
          c ≠ (2 * (s.convIdx / 160) + dy) * (160 * s.hrep.val) + s.hrep.val * (s.convIdx % 160) + dx) →
        bbRead t c = bbRead s c

/-- R70: where a byte of the pixel does not answer, or the read is lost, the step changes nothing of PCBM's and records
nothing (it is marked as stuck, log entry 24), and from then on the unit stays in CONVERTING at that pixel for good: over
any run without a reset, whatever the host stores or the platform maps. -/
def Obligations.SilentMemoryHoldsTheConverter : Prop :=
  (∀ (s : State) (rest : List Event) (j : Nat),
    s.inputs = .convTurn :: rest → s.convState = .converting → s.convIdx < 19200 → j < 4 →
    pixelByte s s.convBase s.convIdx j = none → step s = .next { s with inputs := rest, readHung := true }) ∧
  (∀ (s : State) (rest : List Event), s.inputs = .readLost :: rest → s.convState = .converting → s.convIdx < 19200 →
    step s = .next { s with inputs := rest, readHung := true }) ∧
  ∀ (s t : State) (n : Nat), s.convState = .converting → s.readHung = true → (∀ e ∈ s.inputs.take n, e ≠ .reset) →
    run n s = .next t →
    t.convState = .converting ∧ t.readHung = true ∧ t.convIdx = s.convIdx ∧ t.convBase = s.convBase ∧
      ∀ c, bbRead t c = bbRead s c

/-- R215 (60_exceptions.md section 1): a hang has no timeout, is never recorded, and only its own event or a reset ends
it; a converter whose read went unanswered has no event of its own, so reset is the only way out. -/
def Obligations.HangsEndOnlyByTheirEventOrReset : Prop :=
  (∀ (s t : State) (e : Event) (rest : List Event), s.inputs = e :: rest → e ≠ .reset → step s = .next t →
    (s.convState = .waitDrain → s.drainBusy = true → t.convState = .waitDrain) ∧
    (s.convState = .converting → s.readHung = true → t.convState = .converting ∧ t.readHung = true) ∧
    (s.blState ≠ .idle → e ≠ .request (.port .slpAck) → t.blState = s.blState) ∧
    (e = .convTurn ∨ e = .readLost → t.errCode = s.errCode ∧ t.errOvf = s.errOvf)) ∧
  ∀ (s : State) (rest : List Event), s.inputs = .reset :: rest →
    ∃ t, step s = .next t ∧ t.convState = .idle ∧ t.readHung = false ∧ t.blState = .idle

/-- R122, R67: the pad byte never matters: two host memories that hold the same R, G and B of the pixel and any two
pad bytes give the same back-buffer. -/
def Obligations.PadByteNeverMatters : Prop :=
  ∀ (s t t' : State) (m : Memory) (rest : List Event),
    s.inputs = .convTurn :: rest →
    (∀ j < 3, pixelByte { s with hostMem := m } s.convBase s.convIdx j = pixelByte s s.convBase s.convIdx j) →
    (pixelByte s s.convBase s.convIdx 3).isSome = true →
    (pixelByte { s with hostMem := m } s.convBase s.convIdx 3).isSome = true →
    step s = .next t → step { s with hostMem := m } = .next t' → t' = { t with hostMem := m }

/-- R133: a conversion from WAIT_DRAIN takes exactly 1 + SRC_N converter steps: in any interleaving without a reset it is
IDLE, for the first time, exactly when the converter has taken that many, and then with index SRC_N and CONV_BUSY 0.
Given as many turns in a row with the drain over and host memory answering, it does get there, changing nothing but the
back-buffer and the converter's state. And the index stays until a CONVERT is accepted: over any step from IDLE to
IDLE. -/
def Obligations.ConversionTakesOnePlusSrcNTurns : Prop :=
  (∀ (s t : State) (n : Nat), s.convState = .waitDrain → s.convIdx = 0 → (∀ e ∈ s.inputs.take n, e ≠ .reset) →
    (∀ k < n, ∀ u, run k s = .next u → u.convState ≠ .idle) → run n s = .next t →
    (t.convState = .idle ↔ converterSteps n s = 1 + 19200) ∧
    (t.convState = .idle → t.convIdx = 19200 ∧ (statusWord t).getLsbD 0 = false)) ∧
  (∀ (s : State) (rest : List Event),
    s.convState = .waitDrain → s.convIdx = 0 → s.readHung = false → s.drainBusy = false →
    s.inputs = List.replicate (1 + Config.srcN) .convTurn ++ rest →
    (∀ i < Config.srcN, ∀ j < 4, (pixelByte s s.convBase i j).isSome = true) →
    (∀ k, k ≤ Config.srcN → ∃ u, run k s = .next u ∧ u.convState ≠ .idle) ∧
    ∃ t, run (1 + Config.srcN) s = .next t ∧
      t = { s with inputs := rest, convState := .idle, convIdx := Config.srcN, bb := t.bb } ∧
      (statusWord t).getLsbD 0 = false) ∧
  ∀ (s t : State) (e : Event) (rest : List Event), s.inputs = e :: rest → e ≠ .reset →
    s.convState = .idle → step s = .next t → t.convState = .idle → t.convIdx = s.convIdx

/-- R134: whatever other agents do in between, if no event touches the framebuffer's bytes and there is no reset, then
when the conversion first completes every cell holds the pack of its source pixel, read at the rule's address. -/
def Obligations.ConversionResultOfEveryInterleaving : Prop :=
  ∀ (s t : State) (n : Nat),
    s.convState = .waitDrain → s.convIdx = 0 →
    (∀ e ∈ s.inputs.take n, e ≠ .reset ∧ avoidsFramebuffer s.convBase e) →
    (∀ k < n, ∀ u, run k s = .next u → u.convState ≠ .idle) →
    run n s = .next t → t.convState = .idle →
    ∀ c x y a, c < 38400 * s.hrep.val → x = c % (160 * s.hrep.val) / s.hrep.val → y = c / (160 * s.hrep.val) / 2 →
      a = s.convBase.toNat + 4 * (y * 160 + x) →
      ∃ r g b,
        memByte s.hostMem (a % 2 ^ 32) = some r ∧ memByte s.hostMem ((a + 1) % 2 ^ 32) = some g ∧
        memByte s.hostMem ((a + 2) % 2 ^ 32) = some b ∧ bbRead t c = pack r g b

/-- R135: two conversions of the same framebuffer bytes at the same base leave the same back-buffer, cell for cell,
whatever the back-buffer held before, whatever the pad bytes, and whatever other agents do in between (nothing that
touches the framebuffer, no reset). -/
def Obligations.ConversionForgetsTheOldImage : Prop :=
  ∀ (s s' t t' : State) (n n' : Nat),
    s.convState = .waitDrain → s'.convState = .waitDrain → s.convIdx = 0 → s'.convIdx = 0 →
    s'.convBase = s.convBase → s'.hrep = s.hrep →
    (∀ i < Config.srcN, ∀ j < 3, pixelByte s' s.convBase i j = pixelByte s s.convBase i j) →
    (∀ e ∈ s.inputs.take n, e ≠ .reset ∧ avoidsFramebuffer s.convBase e) →
    (∀ e ∈ s'.inputs.take n', e ≠ .reset ∧ avoidsFramebuffer s.convBase e) →
    (∀ k < n, ∀ u, run k s = .next u → u.convState ≠ .idle) →
    (∀ k < n', ∀ u, run k s' = .next u → u.convState ≠ .idle) →
    run n s = .next t → run n' s' = .next t' → t.convState = .idle → t'.convState = .idle →
    ∀ c < 38400 * s.hrep.val, bbRead t' c = bbRead t c

/-- R120, R121: the fields of the packed pixel, as arithmetic. -/
def Obligations.PackIsFiveSixFive : Prop :=
  ∀ r g b : Byte, (pack r g b).toNat = r.toNat / 8 * 2048 + g.toNat / 4 * 32 + b.toNat / 8 ∧
    pack r g b = r.extractLsb' 3 5 ++ g.extractLsb' 2 6 ++ b.extractLsb' 3 5

/-- R122: `pack` is onto, agrees on two inputs exactly where the kept bits agree, and is 0x0000 and 0xFFFF exactly on
the stated ranges. -/
def Obligations.PackProperties : Prop :=
  (∀ p : Pixel, ∃ r g b : Byte, pack r g b = p) ∧
  (∀ r g b r' g' b' : Byte, pack r g b = pack r' g' b' ↔
    r.toNat / 8 = r'.toNat / 8 ∧ g.toNat / 4 = g'.toNat / 4 ∧ b.toNat / 8 = b'.toNat / 8) ∧
  (∀ r g b : Byte, pack r g b = 0x0000#16 ↔ r.toNat < 8 ∧ g.toNat < 4 ∧ b.toNat < 8) ∧
  (∀ r g b : Byte, pack r g b = 0xFFFF#16 ↔ 0xF8 ≤ r.toNat ∧ 0xFC ≤ g.toNat ∧ 0xF8 ≤ b.toNat)

/-- R123, R124, R125: for either HREP the cells of the source pixels are pairwise disjoint, each named once, and
cover the back-buffer; a cell's pixel is the inverse map's. -/
def Obligations.DestinationCellsPartitionTheBackBuffer : Prop :=
  ∀ h : Hrep,
    Config.dstW h = 160 * h.val ∧ Config.dstN h = 38400 * h.val ∧
    (∀ x y, x < 160 → y < 120 → (destCells h x y).Nodup ∧ (destCells h x y).length = 2 * h.val ∧
      ∀ c, c ∈ destCells h x y ↔ ∃ dy < 2, ∃ dx < h.val, c = (2 * y + dy) * Config.dstW h + h.val * x + dx) ∧
    (∀ x y c, x < 160 → y < 120 → c ∈ destCells h x y →
      c < Config.dstN h ∧ x = c % Config.dstW h / h.val ∧ y = c / Config.dstW h / 2) ∧
    (∀ c < Config.dstN h, c % Config.dstW h / h.val < 160 ∧ c / Config.dstW h / 2 < 120 ∧
      c ∈ destCells h (c % Config.dstW h / h.val) (c / Config.dstW h / 2))

/-! ## Backlight -/

/-- R151: the table is the source's formula in exact real arithmetic, rounded to nearest. -/
def Obligations.GammaTableIsTheExactCurve : Prop :=
  ∀ b : Byte, (gammaLut b).toNat = ⌊(65535 : ℝ) * ((b.toNat : ℝ) / 255) ^ ((14 : ℝ) / 5) + 1 / 2⌋₊

/-- R153: the ends, monotone, zero exactly for 0 to 3 (so that SET_BACKLIGHT(1) to (3) turn an awake backlight off
without a request), and where neighbours are equal. -/
def Obligations.GammaTableProperties : Prop :=
  gammaLut 0#8 = 0#16 ∧ gammaLut 255#8 = 65535#16 ∧
  (∀ a b : Byte, a.toNat ≤ b.toNat → (gammaLut a).toNat ≤ (gammaLut b).toNat) ∧
  (∀ b : Byte, gammaLut b = 0#16 ↔ b.toNat ≤ 3) ∧
  (∀ a b : Byte, b.toNat = a.toNat + 1 →
    (gammaLut b = gammaLut a ↔ b.toNat = 1 ∨ b.toNat = 2 ∨ b.toNat = 3 ∨ b.toNat = 5)) ∧
  (∀ (s : State) (b : Byte), s.blState = .idle → s.displaySleep = false → 1 ≤ b.toNat → b.toNat ≤ 3 →
    exec (.setBacklight b) s = .next { s with brightness := b, duty := 0#16 })

/-! ## Whole-machine rules -/

/-- R44, R45, R46: every step from a state that meets the invariants reaches a state that meets them; with them the
hardwired bits of `conv_base` and the canonical forms of host memory and the back-buffer. -/
def Obligations.EveryStepKeepsTheInvariants : Prop :=
  ∀ s t : State, s.Inv → step s = .next t → t.Inv

/-- 10_state.md section 8: the reset values meet the invariants, for either HREP and whatever host memory (in its
canonical form), the level of `drain_busy` and the events to come. -/
def Obligations.ResetMeetsTheInvariants : Prop :=
  ∀ (m : Memory) (busy : Bool) (es : List Event) (h : Hrep), Memory.wf m →
    State.Inv { State.reset with hostMem := m, drainBusy := busy, inputs := es, hrep := h }

/-- R240: reset takes one step from any state to the values of R48; every back-buffer cell is unspecified (a free
value). -/
def Obligations.ResetPutsEveryPieceOfState : Prop :=
  ∀ (s : State) (rest : List Event), s.inputs = .reset :: rest →
    ∃ t, step s = .next t ∧
      t.convState = .idle ∧ t.convIdx = 0 ∧ t.convBase = 0#32 ∧ t.fbAddr = 0#30 ∧ t.sleepEntryKind = .leaveSleep ∧
      t.errCode = .noError ∧ t.errOvf = false ∧ t.brightness = 0#8 ∧ t.duty = 0#16 ∧ t.pwmLevel = 0#16 ∧
      t.displaySleep = false ∧ t.blState = .idle ∧ t.blPending = 0#8 ∧ t.slpReq = false ∧ t.slpKind = .leaveSleep ∧
      t.readHung = false ∧ (∀ c, bbRead t c = Config.bbUnspecified (s.resetCount + 1) c)

/-- 70_reset_and_hazards.md section 1; the model's choice (log entry 16): a reset leaves what is not PCBM's, that is
HREP, the input level, host memory, what earlier reads returned, and the events to come, whatever else the state
holds. -/
def Obligations.ResetLeavesWhatIsNotPcbms : Prop :=
  ∀ (s : State) (rest : List Event), s.inputs = .reset :: rest →
    ∃ t, step s = .next t ∧ t.hrep = s.hrep ∧ t.drainBusy = s.drainBusy ∧ t.hostMem = s.hostMem ∧
      t.rdata = s.rdata ∧ t.rdData = s.rdData ∧ t.inputs = rest

/-- R62: no step but a host store, or the platform mapping memory, changes a byte of host memory, and no step reads host
memory outside the framebuffer at `conv_base`: on two memories that agree there, any other step does the same. -/
def Obligations.HostMemoryIsReadOnlyAndOnlyInTheFramebuffer : Prop :=
  (∀ (s t : State) (e : Event) (rest : List Event), s.inputs = e :: rest →
    (∀ addr bytes, e ≠ .hostStore addr bytes ∧ e ≠ .mapMemory addr bytes) → step s = .next t →
    ∀ a, memByte t.hostMem a = memByte s.hostMem a) ∧
  (∀ (s t : State) (m : Memory) (e : Event) (rest : List Event), s.inputs = e :: rest →
    (∀ addr bytes, e ≠ .hostStore addr bytes ∧ e ≠ .mapMemory addr bytes) →
    (∀ i < 19200, ∀ j < 4, pixelByte { s with hostMem := m } s.convBase i j = pixelByte s s.convBase i j) →
    step s = .next t → step { s with hostMem := m } = .next { t with hostMem := m })

/-- R74 (20_memory.md section 5): a host store of at most 2^32 bytes is what its addresses read as, every other byte
is as before, and nothing else changes. The model's choice: a store of any length is one event (log entry 18), and a
store to an address that does not answer changes nothing, so the address stays silent (log entry 6). -/
def Obligations.HostStoreIsWhatIsRead : Prop :=
  ∀ (s : State) (rest : List Event) (addr : Word) (bytes : List Byte),
    s.inputs = .hostStore addr bytes :: rest → bytes.length ≤ 2 ^ 32 →
    ∃ t, step s = .next t ∧ t = { s with inputs := rest, hostMem := t.hostMem } ∧
      (∀ (k : Nat) (b : Byte), bytes[k]? = some b →
        memByte t.hostMem (addr + BitVec.ofNat 32 k).toNat =
          if (memByte s.hostMem (addr + BitVec.ofNat 32 k).toNat).isSome then some b else none) ∧
      (∀ a : Word, (∀ k < bytes.length, addr + BitVec.ofNat 32 k ≠ a) →
        memByte t.hostMem a.toNat = memByte s.hostMem a.toNat)

/-- 20_memory.md section 5, 70_reset_and_hazards.md section 2; the model's choice (log entries 6, 18 and 25): memory
that the platform maps answers with its initial bytes (R74's initial memory value), a byte that answered before keeps
its value, so that no host write is lost, every other byte is as before, and nothing else changes. -/
def Obligations.MappedMemoryAnswers : Prop :=
  ∀ (s : State) (rest : List Event) (addr : Word) (bytes : List Byte),
    s.inputs = .mapMemory addr bytes :: rest → bytes.length ≤ 2 ^ 32 →
    ∃ t, step s = .next t ∧ t = { s with inputs := rest, hostMem := t.hostMem } ∧
      (∀ (k : Nat) (b : Byte), bytes[k]? = some b →
        memByte t.hostMem (addr + BitVec.ofNat 32 k).toNat =
          some ((memByte s.hostMem (addr + BitVec.ofNat 32 k).toNat).getD b)) ∧
      (∀ a : Word, (∀ k < bytes.length, addr + BitVec.ofNat 32 k ≠ a) →
        memByte t.hostMem a.toNat = memByte s.hostMem a.toNat)

/-- R25 to R29, R34, R37 to R39 (10_state.md sections 2 to 5): which events may change which state; reset apart, no
other event does. The model's choice in it: the fields `inputs` (log entry 1), `resetCount` (5), `hrep` (13) and
`readHung` (24) are the model's own, and what the last reads returned, `rdata` and `rdData`, is kept until the next read
(log entry 7). -/
def Obligations.EachStateHasItsOwnWriters : Prop :=
  ∀ (s t : State) (e : Event) (rest : List Event), s.inputs = e :: rest → e ≠ .reset → step s = .next t →
    t.inputs = rest ∧ t.resetCount = s.resetCount ∧ t.hrep = s.hrep ∧
    (e ≠ .convTurn → e ≠ .readLost → t.readHung = s.readHung) ∧
    (e ≠ .convTurn → ∀ c, bbRead t c = bbRead s c) ∧
    (¬ isCommand e → e ≠ .convTurn →
      t.convState = s.convState ∧ t.convIdx = s.convIdx ∧ t.convBase = s.convBase) ∧
    (¬ isCommand e → t.brightness = s.brightness ∧ t.blPending = s.blPending ∧ t.slpKind = s.slpKind) ∧
    (¬ isCommand e → e ≠ .request (.port .slpAck) →
      t.duty = s.duty ∧ t.blState = s.blState ∧ t.slpReq = s.slpReq) ∧
    (e ≠ .request (.port .slpAck) → t.displaySleep = s.displaySleep) ∧
    (¬ isCommand e → ¬ eventWrites .err e → t.errCode = s.errCode ∧ t.errOvf = s.errOvf) ∧
    (¬ eventWrites .fbBase e → t.fbAddr = s.fbAddr) ∧
    (¬ eventWrites .config e → t.sleepEntryKind = s.sleepEntryKind) ∧
    (e ≠ .request (.port .drainBusyRise) → e ≠ .request (.port .drainBusyFall) → t.drainBusy = s.drainBusy) ∧
    ((∀ g, e ≠ .request (readOf g)) → t.rdata = s.rdata) ∧
    ((∀ i, e ≠ .request (.port (.drainRead i))) → t.rdData = s.rdData)

/-- R244 (70_reset_and_hazards.md section 3): once a unit is seen idle, it stays idle until the host's next command:
over any run without one. -/
def Obligations.OnlyCommandsLeaveIdle : Prop :=
  ∀ (s t : State) (n : Nat), (∀ e ∈ s.inputs.take n, ¬ isCommand e) → run n s = .next t →
    (s.convState = .idle → t.convState = .idle) ∧ (s.blState = .idle → t.blState = .idle)

/-- R136: the units share no state and never wait on each other: each unit's steps leave the other's state alone, and
each accepts its command whatever the other is doing, and the order of a converter step and a backlight event does not
matter. -/
def Obligations.UnitsShareNoState : Prop :=
  (∀ (s t : State) (b : Byte), exec (.setBacklight b) s = .next t ∨ exec .slpAck s = .next t →
    t.convState = s.convState ∧ t.convIdx = s.convIdx ∧ t.convBase = s.convBase ∧ t.bb = s.bb ∧
      t.fbAddr = s.fbAddr ∧ t.readHung = s.readHung) ∧
  (∀ s t : State, exec .convert s = .next t ∨ convTurn s = t →
    t.brightness = s.brightness ∧ t.duty = s.duty ∧ t.displaySleep = s.displaySleep ∧ t.blState = s.blState ∧
      t.blPending = s.blPending ∧ t.slpReq = s.slpReq ∧ t.slpKind = s.slpKind ∧
      t.sleepEntryKind = s.sleepEntryKind) ∧
  (∀ (s : State) (bl : BlState), s.convState = .idle →
    ∃ t, exec .convert { s with blState := bl } = .next t ∧ t.convState = .waitDrain ∧ t.errCode = s.errCode) ∧
  (∀ (s : State) (cv : ConvState) (b : Byte), s.blState = .idle →
    ∃ t, exec (.setBacklight b) { s with convState := cv } = .next t ∧ t.brightness = b ∧ t.errCode = s.errCode) ∧
  (∀ (s t : State) (b : Byte), exec (.setBacklight b) s = .next t →
    exec (.setBacklight b) (convTurn s) = .next (convTurn t)) ∧
  (∀ s t : State, exec .slpAck s = .next t → exec .slpAck (convTurn s) = .next (convTurn t))

/-- R247: a CONVERT written while a drain runs is accepted and held; over any run in which the drain does not end
(nor a reset come) a unit that was not converting does not start, and no cell changes. -/
def Obligations.DrainHoldsTheBackBuffer : Prop :=
  (∀ s : State, s.convState = .idle → s.drainBusy = true →
    ∃ t, exec .convert s = .next t ∧ t.convState = .waitDrain ∧ t.errCode = s.errCode) ∧
  (∀ (s t : State) (n : Nat), s.drainBusy = true → s.convState ≠ .converting →
    (∀ e ∈ s.inputs.take n, e ≠ .reset ∧ e ≠ .request (.port .drainBusyFall)) → run n s = .next t →
    t.drainBusy = true ∧ t.convState ≠ .converting ∧ (s.convState = .waitDrain → t.convState = .waitDrain) ∧
      ∀ c, bbRead t c = bbRead s c)

/-- R82, R246 (20_memory.md section 5, 70_reset_and_hazards.md section 3): under clause 1 of the drain agent's
contract no conversion runs while `drain_busy` is 1, step after step, and no cell changes while it is. -/
def Obligations.DrainContractProtectsTheImage : Prop :=
  ∀ (s t : State) (e : Event) (rest : List Event), s.inputs = e :: rest → drainContract s e →
    (s.drainBusy = true → s.convState ≠ .converting) → step s = .next t →
    (t.drainBusy = true → t.convState ≠ .converting) ∧
    (s.drainBusy = true → e ≠ .reset → ∀ c, bbRead t c = bbRead s c)

/-- 42_register_access.md sections 1 to 3: a step is refused exactly for an unsupported access (R206), a drain read out
of range (R200), or an acknowledge with no request out (R202). That no step faults, and that the converter's turns, the
memory events and a reset are never refused, is the model's reading: R210 and R218 give PCBM no trap, and Fault has no
constructor (log entry 20). -/
def Obligations.WhenAStepIsRefused : Prop :=
  ∀ (s : State) (e : Event) (rest : List Event), s.inputs = e :: rest →
    (∀ f, step s ≠ .fault f) ∧
    ∀ r, step s = .refused r ↔
      (r = .unsupportedAccess ∧ ∃ a, e = .request (.mmio a) ∧ a.supported = false) ∨
      (r = .drainIndexOutOfRange ∧ ∃ i, e = .request (.port (.drainRead i)) ∧ 38400 * s.hrep.val ≤ i) ∨
      (r = .ackWithoutRequest ∧ e = .request (.port .slpAck) ∧ s.slpReq = false)

/-! ## Progress -/

/-- R254 (70_reset_and_hazards.md section 4): a conversion ends where the converter and the drain agent are fair, the
drain agent raises `drain_busy` only while the converter is idle (R246), host memory answers, and no step is refused. -/
def Obligations.FairConversionsEnd : Prop :=
  ∀ (schedule : Nat → Event) (s : State), s.Inv → s.readHung = false →
    (∀ i < 19200, ∀ j < 4, (pixelByte s s.convBase i j).isSome = true) → (∀ n, schedule n ≠ .readLost) →
    (∀ n, ∃ u, stateAt schedule s n = .next u ∧ drainContract u (schedule n)) →
    ConverterFair schedule s → DrainFair schedule s →
    ∃ n u, stateAt schedule s n = .next u ∧ u.convState = .idle

/-- R254 (70_reset_and_hazards.md section 4): a sleep transition ends where the sleep sequencer is fair and no step is
refused. -/
def Obligations.FairSleepTransitionsEnd : Prop :=
  ∀ (schedule : Nat → Event) (s : State), s.Inv → (∀ n, ∃ u, stateAt schedule s n = .next u) →
    SequencerFair schedule s → ∃ n u, stateAt schedule s n = .next u ∧ u.blState = .idle ∧ u.slpReq = false
end

