-- ==== Sys2Proof/Laws/State.lean ====
section
/-! SUPPORT. One lemma per field per update of State: what the update writes, and that it leaves every other field. -/

namespace Sys2Proof.Machine

variable (s : State)

@[simp] theorem withInputs_convState (es : List Event) : (s.withInputs es).convState = s.convState := rfl
@[simp] theorem withInputs_convIdx (es : List Event) : (s.withInputs es).convIdx = s.convIdx := rfl
@[simp] theorem withInputs_convBase (es : List Event) : (s.withInputs es).convBase = s.convBase := rfl
@[simp] theorem withInputs_bb (es : List Event) : (s.withInputs es).bb = s.bb := rfl
@[simp] theorem withInputs_fbAddr (es : List Event) : (s.withInputs es).fbAddr = s.fbAddr := rfl
@[simp] theorem withInputs_sleepEntryKind (es : List Event) : (s.withInputs es).sleepEntryKind = s.sleepEntryKind := rfl
@[simp] theorem withInputs_errCode (es : List Event) : (s.withInputs es).errCode = s.errCode := rfl
@[simp] theorem withInputs_errOvf (es : List Event) : (s.withInputs es).errOvf = s.errOvf := rfl
@[simp] theorem withInputs_brightness (es : List Event) : (s.withInputs es).brightness = s.brightness := rfl
@[simp] theorem withInputs_duty (es : List Event) : (s.withInputs es).duty = s.duty := rfl
@[simp] theorem withInputs_displaySleep (es : List Event) : (s.withInputs es).displaySleep = s.displaySleep := rfl
@[simp] theorem withInputs_blState (es : List Event) : (s.withInputs es).blState = s.blState := rfl
@[simp] theorem withInputs_blPending (es : List Event) : (s.withInputs es).blPending = s.blPending := rfl
@[simp] theorem withInputs_slpReq (es : List Event) : (s.withInputs es).slpReq = s.slpReq := rfl
@[simp] theorem withInputs_slpKind (es : List Event) : (s.withInputs es).slpKind = s.slpKind := rfl
@[simp] theorem withInputs_drainBusy (es : List Event) : (s.withInputs es).drainBusy = s.drainBusy := rfl
@[simp] theorem withInputs_rdata (es : List Event) : (s.withInputs es).rdata = s.rdata := rfl
@[simp] theorem withInputs_rdData (es : List Event) : (s.withInputs es).rdData = s.rdData := rfl
@[simp] theorem withInputs_hostMem (es : List Event) : (s.withInputs es).hostMem = s.hostMem := rfl
@[simp] theorem withInputs_hrep (es : List Event) : (s.withInputs es).hrep = s.hrep := rfl
@[simp] theorem withInputs_readHung (es : List Event) : (s.withInputs es).readHung = s.readHung := rfl
@[simp] theorem withInputs_resetCount (es : List Event) : (s.withInputs es).resetCount = s.resetCount := rfl
@[simp] theorem withInputs_inputs (es : List Event) : (s.withInputs es).inputs = es := rfl

@[simp] theorem withConv_convState (st : ConvState) (idx : Nat) (base : Word) : (s.withConv st idx base).convState = st := rfl
@[simp] theorem withConv_convIdx (st : ConvState) (idx : Nat) (base : Word) : (s.withConv st idx base).convIdx = idx := rfl
@[simp] theorem withConv_convBase (st : ConvState) (idx : Nat) (base : Word) : (s.withConv st idx base).convBase = base := rfl
@[simp] theorem withConv_bb (st : ConvState) (idx : Nat) (base : Word) : (s.withConv st idx base).bb = s.bb := rfl
@[simp] theorem withConv_fbAddr (st : ConvState) (idx : Nat) (base : Word) : (s.withConv st idx base).fbAddr = s.fbAddr := rfl
@[simp] theorem withConv_sleepEntryKind (st : ConvState) (idx : Nat) (base : Word) : (s.withConv st idx base).sleepEntryKind = s.sleepEntryKind := rfl
@[simp] theorem withConv_errCode (st : ConvState) (idx : Nat) (base : Word) : (s.withConv st idx base).errCode = s.errCode := rfl
@[simp] theorem withConv_errOvf (st : ConvState) (idx : Nat) (base : Word) : (s.withConv st idx base).errOvf = s.errOvf := rfl
@[simp] theorem withConv_brightness (st : ConvState) (idx : Nat) (base : Word) : (s.withConv st idx base).brightness = s.brightness := rfl
@[simp] theorem withConv_duty (st : ConvState) (idx : Nat) (base : Word) : (s.withConv st idx base).duty = s.duty := rfl
@[simp] theorem withConv_displaySleep (st : ConvState) (idx : Nat) (base : Word) : (s.withConv st idx base).displaySleep = s.displaySleep := rfl
@[simp] theorem withConv_blState (st : ConvState) (idx : Nat) (base : Word) : (s.withConv st idx base).blState = s.blState := rfl
@[simp] theorem withConv_blPending (st : ConvState) (idx : Nat) (base : Word) : (s.withConv st idx base).blPending = s.blPending := rfl
@[simp] theorem withConv_slpReq (st : ConvState) (idx : Nat) (base : Word) : (s.withConv st idx base).slpReq = s.slpReq := rfl
@[simp] theorem withConv_slpKind (st : ConvState) (idx : Nat) (base : Word) : (s.withConv st idx base).slpKind = s.slpKind := rfl
@[simp] theorem withConv_drainBusy (st : ConvState) (idx : Nat) (base : Word) : (s.withConv st idx base).drainBusy = s.drainBusy := rfl
@[simp] theorem withConv_rdata (st : ConvState) (idx : Nat) (base : Word) : (s.withConv st idx base).rdata = s.rdata := rfl
@[simp] theorem withConv_rdData (st : ConvState) (idx : Nat) (base : Word) : (s.withConv st idx base).rdData = s.rdData := rfl
@[simp] theorem withConv_hostMem (st : ConvState) (idx : Nat) (base : Word) : (s.withConv st idx base).hostMem = s.hostMem := rfl
@[simp] theorem withConv_hrep (st : ConvState) (idx : Nat) (base : Word) : (s.withConv st idx base).hrep = s.hrep := rfl
@[simp] theorem withConv_readHung (st : ConvState) (idx : Nat) (base : Word) : (s.withConv st idx base).readHung = s.readHung := rfl
@[simp] theorem withConv_resetCount (st : ConvState) (idx : Nat) (base : Word) : (s.withConv st idx base).resetCount = s.resetCount := rfl
@[simp] theorem withConv_inputs (st : ConvState) (idx : Nat) (base : Word) : (s.withConv st idx base).inputs = s.inputs := rfl

@[simp] theorem withBb_convState (b : BackBuffer) : (s.withBb b).convState = s.convState := rfl
@[simp] theorem withBb_convIdx (b : BackBuffer) : (s.withBb b).convIdx = s.convIdx := rfl
@[simp] theorem withBb_convBase (b : BackBuffer) : (s.withBb b).convBase = s.convBase := rfl
@[simp] theorem withBb_bb (b : BackBuffer) : (s.withBb b).bb = b := rfl
@[simp] theorem withBb_fbAddr (b : BackBuffer) : (s.withBb b).fbAddr = s.fbAddr := rfl
@[simp] theorem withBb_sleepEntryKind (b : BackBuffer) : (s.withBb b).sleepEntryKind = s.sleepEntryKind := rfl
@[simp] theorem withBb_errCode (b : BackBuffer) : (s.withBb b).errCode = s.errCode := rfl
@[simp] theorem withBb_errOvf (b : BackBuffer) : (s.withBb b).errOvf = s.errOvf := rfl
@[simp] theorem withBb_brightness (b : BackBuffer) : (s.withBb b).brightness = s.brightness := rfl
@[simp] theorem withBb_duty (b : BackBuffer) : (s.withBb b).duty = s.duty := rfl
@[simp] theorem withBb_displaySleep (b : BackBuffer) : (s.withBb b).displaySleep = s.displaySleep := rfl
@[simp] theorem withBb_blState (b : BackBuffer) : (s.withBb b).blState = s.blState := rfl
@[simp] theorem withBb_blPending (b : BackBuffer) : (s.withBb b).blPending = s.blPending := rfl
@[simp] theorem withBb_slpReq (b : BackBuffer) : (s.withBb b).slpReq = s.slpReq := rfl
@[simp] theorem withBb_slpKind (b : BackBuffer) : (s.withBb b).slpKind = s.slpKind := rfl
@[simp] theorem withBb_drainBusy (b : BackBuffer) : (s.withBb b).drainBusy = s.drainBusy := rfl
@[simp] theorem withBb_rdata (b : BackBuffer) : (s.withBb b).rdata = s.rdata := rfl
@[simp] theorem withBb_rdData (b : BackBuffer) : (s.withBb b).rdData = s.rdData := rfl
@[simp] theorem withBb_hostMem (b : BackBuffer) : (s.withBb b).hostMem = s.hostMem := rfl
@[simp] theorem withBb_hrep (b : BackBuffer) : (s.withBb b).hrep = s.hrep := rfl
@[simp] theorem withBb_readHung (b : BackBuffer) : (s.withBb b).readHung = s.readHung := rfl
@[simp] theorem withBb_resetCount (b : BackBuffer) : (s.withBb b).resetCount = s.resetCount := rfl
@[simp] theorem withBb_inputs (b : BackBuffer) : (s.withBb b).inputs = s.inputs := rfl

@[simp] theorem withFbAddr_convState (a : BitVec 30) : (s.withFbAddr a).convState = s.convState := rfl
@[simp] theorem withFbAddr_convIdx (a : BitVec 30) : (s.withFbAddr a).convIdx = s.convIdx := rfl
@[simp] theorem withFbAddr_convBase (a : BitVec 30) : (s.withFbAddr a).convBase = s.convBase := rfl
@[simp] theorem withFbAddr_bb (a : BitVec 30) : (s.withFbAddr a).bb = s.bb := rfl
@[simp] theorem withFbAddr_fbAddr (a : BitVec 30) : (s.withFbAddr a).fbAddr = a := rfl
@[simp] theorem withFbAddr_sleepEntryKind (a : BitVec 30) : (s.withFbAddr a).sleepEntryKind = s.sleepEntryKind := rfl
@[simp] theorem withFbAddr_errCode (a : BitVec 30) : (s.withFbAddr a).errCode = s.errCode := rfl
@[simp] theorem withFbAddr_errOvf (a : BitVec 30) : (s.withFbAddr a).errOvf = s.errOvf := rfl
@[simp] theorem withFbAddr_brightness (a : BitVec 30) : (s.withFbAddr a).brightness = s.brightness := rfl
@[simp] theorem withFbAddr_duty (a : BitVec 30) : (s.withFbAddr a).duty = s.duty := rfl
@[simp] theorem withFbAddr_displaySleep (a : BitVec 30) : (s.withFbAddr a).displaySleep = s.displaySleep := rfl
@[simp] theorem withFbAddr_blState (a : BitVec 30) : (s.withFbAddr a).blState = s.blState := rfl
@[simp] theorem withFbAddr_blPending (a : BitVec 30) : (s.withFbAddr a).blPending = s.blPending := rfl
@[simp] theorem withFbAddr_slpReq (a : BitVec 30) : (s.withFbAddr a).slpReq = s.slpReq := rfl
@[simp] theorem withFbAddr_slpKind (a : BitVec 30) : (s.withFbAddr a).slpKind = s.slpKind := rfl
@[simp] theorem withFbAddr_drainBusy (a : BitVec 30) : (s.withFbAddr a).drainBusy = s.drainBusy := rfl
@[simp] theorem withFbAddr_rdata (a : BitVec 30) : (s.withFbAddr a).rdata = s.rdata := rfl
@[simp] theorem withFbAddr_rdData (a : BitVec 30) : (s.withFbAddr a).rdData = s.rdData := rfl
@[simp] theorem withFbAddr_hostMem (a : BitVec 30) : (s.withFbAddr a).hostMem = s.hostMem := rfl
@[simp] theorem withFbAddr_hrep (a : BitVec 30) : (s.withFbAddr a).hrep = s.hrep := rfl
@[simp] theorem withFbAddr_readHung (a : BitVec 30) : (s.withFbAddr a).readHung = s.readHung := rfl
@[simp] theorem withFbAddr_resetCount (a : BitVec 30) : (s.withFbAddr a).resetCount = s.resetCount := rfl
@[simp] theorem withFbAddr_inputs (a : BitVec 30) : (s.withFbAddr a).inputs = s.inputs := rfl

@[simp] theorem withSleepEntryKind_convState (k : SleepKind) : (s.withSleepEntryKind k).convState = s.convState := rfl
@[simp] theorem withSleepEntryKind_convIdx (k : SleepKind) : (s.withSleepEntryKind k).convIdx = s.convIdx := rfl
@[simp] theorem withSleepEntryKind_convBase (k : SleepKind) : (s.withSleepEntryKind k).convBase = s.convBase := rfl
@[simp] theorem withSleepEntryKind_bb (k : SleepKind) : (s.withSleepEntryKind k).bb = s.bb := rfl
@[simp] theorem withSleepEntryKind_fbAddr (k : SleepKind) : (s.withSleepEntryKind k).fbAddr = s.fbAddr := rfl
@[simp] theorem withSleepEntryKind_sleepEntryKind (k : SleepKind) : (s.withSleepEntryKind k).sleepEntryKind = k := rfl
@[simp] theorem withSleepEntryKind_errCode (k : SleepKind) : (s.withSleepEntryKind k).errCode = s.errCode := rfl
@[simp] theorem withSleepEntryKind_errOvf (k : SleepKind) : (s.withSleepEntryKind k).errOvf = s.errOvf := rfl
@[simp] theorem withSleepEntryKind_brightness (k : SleepKind) : (s.withSleepEntryKind k).brightness = s.brightness := rfl
@[simp] theorem withSleepEntryKind_duty (k : SleepKind) : (s.withSleepEntryKind k).duty = s.duty := rfl
@[simp] theorem withSleepEntryKind_displaySleep (k : SleepKind) : (s.withSleepEntryKind k).displaySleep = s.displaySleep := rfl
@[simp] theorem withSleepEntryKind_blState (k : SleepKind) : (s.withSleepEntryKind k).blState = s.blState := rfl
@[simp] theorem withSleepEntryKind_blPending (k : SleepKind) : (s.withSleepEntryKind k).blPending = s.blPending := rfl
@[simp] theorem withSleepEntryKind_slpReq (k : SleepKind) : (s.withSleepEntryKind k).slpReq = s.slpReq := rfl
@[simp] theorem withSleepEntryKind_slpKind (k : SleepKind) : (s.withSleepEntryKind k).slpKind = s.slpKind := rfl
@[simp] theorem withSleepEntryKind_drainBusy (k : SleepKind) : (s.withSleepEntryKind k).drainBusy = s.drainBusy := rfl
@[simp] theorem withSleepEntryKind_rdata (k : SleepKind) : (s.withSleepEntryKind k).rdata = s.rdata := rfl
@[simp] theorem withSleepEntryKind_rdData (k : SleepKind) : (s.withSleepEntryKind k).rdData = s.rdData := rfl
@[simp] theorem withSleepEntryKind_hostMem (k : SleepKind) : (s.withSleepEntryKind k).hostMem = s.hostMem := rfl
@[simp] theorem withSleepEntryKind_hrep (k : SleepKind) : (s.withSleepEntryKind k).hrep = s.hrep := rfl
@[simp] theorem withSleepEntryKind_readHung (k : SleepKind) : (s.withSleepEntryKind k).readHung = s.readHung := rfl
@[simp] theorem withSleepEntryKind_resetCount (k : SleepKind) : (s.withSleepEntryKind k).resetCount = s.resetCount := rfl
@[simp] theorem withSleepEntryKind_inputs (k : SleepKind) : (s.withSleepEntryKind k).inputs = s.inputs := rfl

@[simp] theorem withErr_convState (c : ErrCode) (o : Bool) : (s.withErr c o).convState = s.convState := rfl
@[simp] theorem withErr_convIdx (c : ErrCode) (o : Bool) : (s.withErr c o).convIdx = s.convIdx := rfl
@[simp] theorem withErr_convBase (c : ErrCode) (o : Bool) : (s.withErr c o).convBase = s.convBase := rfl
@[simp] theorem withErr_bb (c : ErrCode) (o : Bool) : (s.withErr c o).bb = s.bb := rfl
@[simp] theorem withErr_fbAddr (c : ErrCode) (o : Bool) : (s.withErr c o).fbAddr = s.fbAddr := rfl
@[simp] theorem withErr_sleepEntryKind (c : ErrCode) (o : Bool) : (s.withErr c o).sleepEntryKind = s.sleepEntryKind := rfl
@[simp] theorem withErr_errCode (c : ErrCode) (o : Bool) : (s.withErr c o).errCode = c := rfl
@[simp] theorem withErr_errOvf (c : ErrCode) (o : Bool) : (s.withErr c o).errOvf = o := rfl
@[simp] theorem withErr_brightness (c : ErrCode) (o : Bool) : (s.withErr c o).brightness = s.brightness := rfl
@[simp] theorem withErr_duty (c : ErrCode) (o : Bool) : (s.withErr c o).duty = s.duty := rfl
@[simp] theorem withErr_displaySleep (c : ErrCode) (o : Bool) : (s.withErr c o).displaySleep = s.displaySleep := rfl
@[simp] theorem withErr_blState (c : ErrCode) (o : Bool) : (s.withErr c o).blState = s.blState := rfl
@[simp] theorem withErr_blPending (c : ErrCode) (o : Bool) : (s.withErr c o).blPending = s.blPending := rfl
@[simp] theorem withErr_slpReq (c : ErrCode) (o : Bool) : (s.withErr c o).slpReq = s.slpReq := rfl
@[simp] theorem withErr_slpKind (c : ErrCode) (o : Bool) : (s.withErr c o).slpKind = s.slpKind := rfl
@[simp] theorem withErr_drainBusy (c : ErrCode) (o : Bool) : (s.withErr c o).drainBusy = s.drainBusy := rfl
@[simp] theorem withErr_rdata (c : ErrCode) (o : Bool) : (s.withErr c o).rdata = s.rdata := rfl
@[simp] theorem withErr_rdData (c : ErrCode) (o : Bool) : (s.withErr c o).rdData = s.rdData := rfl
@[simp] theorem withErr_hostMem (c : ErrCode) (o : Bool) : (s.withErr c o).hostMem = s.hostMem := rfl
@[simp] theorem withErr_hrep (c : ErrCode) (o : Bool) : (s.withErr c o).hrep = s.hrep := rfl
@[simp] theorem withErr_readHung (c : ErrCode) (o : Bool) : (s.withErr c o).readHung = s.readHung := rfl
@[simp] theorem withErr_resetCount (c : ErrCode) (o : Bool) : (s.withErr c o).resetCount = s.resetCount := rfl
@[simp] theorem withErr_inputs (c : ErrCode) (o : Bool) : (s.withErr c o).inputs = s.inputs := rfl

@[simp] theorem withBrightness_convState (b : Byte) : (s.withBrightness b).convState = s.convState := rfl
@[simp] theorem withBrightness_convIdx (b : Byte) : (s.withBrightness b).convIdx = s.convIdx := rfl
@[simp] theorem withBrightness_convBase (b : Byte) : (s.withBrightness b).convBase = s.convBase := rfl
@[simp] theorem withBrightness_bb (b : Byte) : (s.withBrightness b).bb = s.bb := rfl
@[simp] theorem withBrightness_fbAddr (b : Byte) : (s.withBrightness b).fbAddr = s.fbAddr := rfl
@[simp] theorem withBrightness_sleepEntryKind (b : Byte) : (s.withBrightness b).sleepEntryKind = s.sleepEntryKind := rfl
@[simp] theorem withBrightness_errCode (b : Byte) : (s.withBrightness b).errCode = s.errCode := rfl
@[simp] theorem withBrightness_errOvf (b : Byte) : (s.withBrightness b).errOvf = s.errOvf := rfl
@[simp] theorem withBrightness_brightness (b : Byte) : (s.withBrightness b).brightness = b := rfl
@[simp] theorem withBrightness_duty (b : Byte) : (s.withBrightness b).duty = s.duty := rfl
@[simp] theorem withBrightness_displaySleep (b : Byte) : (s.withBrightness b).displaySleep = s.displaySleep := rfl
@[simp] theorem withBrightness_blState (b : Byte) : (s.withBrightness b).blState = s.blState := rfl
@[simp] theorem withBrightness_blPending (b : Byte) : (s.withBrightness b).blPending = s.blPending := rfl
@[simp] theorem withBrightness_slpReq (b : Byte) : (s.withBrightness b).slpReq = s.slpReq := rfl
@[simp] theorem withBrightness_slpKind (b : Byte) : (s.withBrightness b).slpKind = s.slpKind := rfl
@[simp] theorem withBrightness_drainBusy (b : Byte) : (s.withBrightness b).drainBusy = s.drainBusy := rfl
@[simp] theorem withBrightness_rdata (b : Byte) : (s.withBrightness b).rdata = s.rdata := rfl
@[simp] theorem withBrightness_rdData (b : Byte) : (s.withBrightness b).rdData = s.rdData := rfl
@[simp] theorem withBrightness_hostMem (b : Byte) : (s.withBrightness b).hostMem = s.hostMem := rfl
@[simp] theorem withBrightness_hrep (b : Byte) : (s.withBrightness b).hrep = s.hrep := rfl
@[simp] theorem withBrightness_readHung (b : Byte) : (s.withBrightness b).readHung = s.readHung := rfl
@[simp] theorem withBrightness_resetCount (b : Byte) : (s.withBrightness b).resetCount = s.resetCount := rfl
@[simp] theorem withBrightness_inputs (b : Byte) : (s.withBrightness b).inputs = s.inputs := rfl

@[simp] theorem withDuty_convState (d : Pixel) : (s.withDuty d).convState = s.convState := rfl
@[simp] theorem withDuty_convIdx (d : Pixel) : (s.withDuty d).convIdx = s.convIdx := rfl
@[simp] theorem withDuty_convBase (d : Pixel) : (s.withDuty d).convBase = s.convBase := rfl
@[simp] theorem withDuty_bb (d : Pixel) : (s.withDuty d).bb = s.bb := rfl
@[simp] theorem withDuty_fbAddr (d : Pixel) : (s.withDuty d).fbAddr = s.fbAddr := rfl
@[simp] theorem withDuty_sleepEntryKind (d : Pixel) : (s.withDuty d).sleepEntryKind = s.sleepEntryKind := rfl
@[simp] theorem withDuty_errCode (d : Pixel) : (s.withDuty d).errCode = s.errCode := rfl
@[simp] theorem withDuty_errOvf (d : Pixel) : (s.withDuty d).errOvf = s.errOvf := rfl
@[simp] theorem withDuty_brightness (d : Pixel) : (s.withDuty d).brightness = s.brightness := rfl
@[simp] theorem withDuty_duty (d : Pixel) : (s.withDuty d).duty = d := rfl
@[simp] theorem withDuty_displaySleep (d : Pixel) : (s.withDuty d).displaySleep = s.displaySleep := rfl
@[simp] theorem withDuty_blState (d : Pixel) : (s.withDuty d).blState = s.blState := rfl
@[simp] theorem withDuty_blPending (d : Pixel) : (s.withDuty d).blPending = s.blPending := rfl
@[simp] theorem withDuty_slpReq (d : Pixel) : (s.withDuty d).slpReq = s.slpReq := rfl
@[simp] theorem withDuty_slpKind (d : Pixel) : (s.withDuty d).slpKind = s.slpKind := rfl
@[simp] theorem withDuty_drainBusy (d : Pixel) : (s.withDuty d).drainBusy = s.drainBusy := rfl
@[simp] theorem withDuty_rdata (d : Pixel) : (s.withDuty d).rdata = s.rdata := rfl
@[simp] theorem withDuty_rdData (d : Pixel) : (s.withDuty d).rdData = s.rdData := rfl
@[simp] theorem withDuty_hostMem (d : Pixel) : (s.withDuty d).hostMem = s.hostMem := rfl
@[simp] theorem withDuty_hrep (d : Pixel) : (s.withDuty d).hrep = s.hrep := rfl
@[simp] theorem withDuty_readHung (d : Pixel) : (s.withDuty d).readHung = s.readHung := rfl
@[simp] theorem withDuty_resetCount (d : Pixel) : (s.withDuty d).resetCount = s.resetCount := rfl
@[simp] theorem withDuty_inputs (d : Pixel) : (s.withDuty d).inputs = s.inputs := rfl

@[simp] theorem withPending_convState (b : Byte) : (s.withPending b).convState = s.convState := rfl
@[simp] theorem withPending_convIdx (b : Byte) : (s.withPending b).convIdx = s.convIdx := rfl
@[simp] theorem withPending_convBase (b : Byte) : (s.withPending b).convBase = s.convBase := rfl
@[simp] theorem withPending_bb (b : Byte) : (s.withPending b).bb = s.bb := rfl
@[simp] theorem withPending_fbAddr (b : Byte) : (s.withPending b).fbAddr = s.fbAddr := rfl
@[simp] theorem withPending_sleepEntryKind (b : Byte) : (s.withPending b).sleepEntryKind = s.sleepEntryKind := rfl
@[simp] theorem withPending_errCode (b : Byte) : (s.withPending b).errCode = s.errCode := rfl
@[simp] theorem withPending_errOvf (b : Byte) : (s.withPending b).errOvf = s.errOvf := rfl
@[simp] theorem withPending_brightness (b : Byte) : (s.withPending b).brightness = s.brightness := rfl
@[simp] theorem withPending_duty (b : Byte) : (s.withPending b).duty = s.duty := rfl
@[simp] theorem withPending_displaySleep (b : Byte) : (s.withPending b).displaySleep = s.displaySleep := rfl
@[simp] theorem withPending_blState (b : Byte) : (s.withPending b).blState = s.blState := rfl
@[simp] theorem withPending_blPending (b : Byte) : (s.withPending b).blPending = b := rfl
@[simp] theorem withPending_slpReq (b : Byte) : (s.withPending b).slpReq = s.slpReq := rfl
@[simp] theorem withPending_slpKind (b : Byte) : (s.withPending b).slpKind = s.slpKind := rfl
@[simp] theorem withPending_drainBusy (b : Byte) : (s.withPending b).drainBusy = s.drainBusy := rfl
@[simp] theorem withPending_rdata (b : Byte) : (s.withPending b).rdata = s.rdata := rfl
@[simp] theorem withPending_rdData (b : Byte) : (s.withPending b).rdData = s.rdData := rfl
@[simp] theorem withPending_hostMem (b : Byte) : (s.withPending b).hostMem = s.hostMem := rfl
@[simp] theorem withPending_hrep (b : Byte) : (s.withPending b).hrep = s.hrep := rfl
@[simp] theorem withPending_readHung (b : Byte) : (s.withPending b).readHung = s.readHung := rfl
@[simp] theorem withPending_resetCount (b : Byte) : (s.withPending b).resetCount = s.resetCount := rfl
@[simp] theorem withPending_inputs (b : Byte) : (s.withPending b).inputs = s.inputs := rfl

@[simp] theorem withRequest_convState (k : SleepKind) (st : BlState) : (s.withRequest k st).convState = s.convState := rfl
@[simp] theorem withRequest_convIdx (k : SleepKind) (st : BlState) : (s.withRequest k st).convIdx = s.convIdx := rfl
@[simp] theorem withRequest_convBase (k : SleepKind) (st : BlState) : (s.withRequest k st).convBase = s.convBase := rfl
@[simp] theorem withRequest_bb (k : SleepKind) (st : BlState) : (s.withRequest k st).bb = s.bb := rfl
@[simp] theorem withRequest_fbAddr (k : SleepKind) (st : BlState) : (s.withRequest k st).fbAddr = s.fbAddr := rfl
@[simp] theorem withRequest_sleepEntryKind (k : SleepKind) (st : BlState) : (s.withRequest k st).sleepEntryKind = s.sleepEntryKind := rfl
@[simp] theorem withRequest_errCode (k : SleepKind) (st : BlState) : (s.withRequest k st).errCode = s.errCode := rfl
@[simp] theorem withRequest_errOvf (k : SleepKind) (st : BlState) : (s.withRequest k st).errOvf = s.errOvf := rfl
@[simp] theorem withRequest_brightness (k : SleepKind) (st : BlState) : (s.withRequest k st).brightness = s.brightness := rfl
@[simp] theorem withRequest_duty (k : SleepKind) (st : BlState) : (s.withRequest k st).duty = s.duty := rfl
@[simp] theorem withRequest_displaySleep (k : SleepKind) (st : BlState) : (s.withRequest k st).displaySleep = s.displaySleep := rfl
@[simp] theorem withRequest_blState (k : SleepKind) (st : BlState) : (s.withRequest k st).blState = st := rfl
@[simp] theorem withRequest_blPending (k : SleepKind) (st : BlState) : (s.withRequest k st).blPending = s.blPending := rfl
@[simp] theorem withRequest_slpReq (k : SleepKind) (st : BlState) : (s.withRequest k st).slpReq = true := rfl
@[simp] theorem withRequest_slpKind (k : SleepKind) (st : BlState) : (s.withRequest k st).slpKind = k := rfl
@[simp] theorem withRequest_drainBusy (k : SleepKind) (st : BlState) : (s.withRequest k st).drainBusy = s.drainBusy := rfl
@[simp] theorem withRequest_rdata (k : SleepKind) (st : BlState) : (s.withRequest k st).rdata = s.rdata := rfl
@[simp] theorem withRequest_rdData (k : SleepKind) (st : BlState) : (s.withRequest k st).rdData = s.rdData := rfl
@[simp] theorem withRequest_hostMem (k : SleepKind) (st : BlState) : (s.withRequest k st).hostMem = s.hostMem := rfl
@[simp] theorem withRequest_hrep (k : SleepKind) (st : BlState) : (s.withRequest k st).hrep = s.hrep := rfl
@[simp] theorem withRequest_readHung (k : SleepKind) (st : BlState) : (s.withRequest k st).readHung = s.readHung := rfl
@[simp] theorem withRequest_resetCount (k : SleepKind) (st : BlState) : (s.withRequest k st).resetCount = s.resetCount := rfl
@[simp] theorem withRequest_inputs (k : SleepKind) (st : BlState) : (s.withRequest k st).inputs = s.inputs := rfl

@[simp] theorem withAck_convState (a : Bool) : (s.withAck a).convState = s.convState := rfl
@[simp] theorem withAck_convIdx (a : Bool) : (s.withAck a).convIdx = s.convIdx := rfl
@[simp] theorem withAck_convBase (a : Bool) : (s.withAck a).convBase = s.convBase := rfl
@[simp] theorem withAck_bb (a : Bool) : (s.withAck a).bb = s.bb := rfl
@[simp] theorem withAck_fbAddr (a : Bool) : (s.withAck a).fbAddr = s.fbAddr := rfl
@[simp] theorem withAck_sleepEntryKind (a : Bool) : (s.withAck a).sleepEntryKind = s.sleepEntryKind := rfl
@[simp] theorem withAck_errCode (a : Bool) : (s.withAck a).errCode = s.errCode := rfl
@[simp] theorem withAck_errOvf (a : Bool) : (s.withAck a).errOvf = s.errOvf := rfl
@[simp] theorem withAck_brightness (a : Bool) : (s.withAck a).brightness = s.brightness := rfl
@[simp] theorem withAck_duty (a : Bool) : (s.withAck a).duty = s.duty := rfl
@[simp] theorem withAck_displaySleep (a : Bool) : (s.withAck a).displaySleep = a := rfl
@[simp] theorem withAck_blState (a : Bool) : (s.withAck a).blState = .idle := rfl
@[simp] theorem withAck_blPending (a : Bool) : (s.withAck a).blPending = s.blPending := rfl
@[simp] theorem withAck_slpReq (a : Bool) : (s.withAck a).slpReq = false := rfl
@[simp] theorem withAck_slpKind (a : Bool) : (s.withAck a).slpKind = s.slpKind := rfl
@[simp] theorem withAck_drainBusy (a : Bool) : (s.withAck a).drainBusy = s.drainBusy := rfl
@[simp] theorem withAck_rdata (a : Bool) : (s.withAck a).rdata = s.rdata := rfl
@[simp] theorem withAck_rdData (a : Bool) : (s.withAck a).rdData = s.rdData := rfl
@[simp] theorem withAck_hostMem (a : Bool) : (s.withAck a).hostMem = s.hostMem := rfl
@[simp] theorem withAck_hrep (a : Bool) : (s.withAck a).hrep = s.hrep := rfl
@[simp] theorem withAck_readHung (a : Bool) : (s.withAck a).readHung = s.readHung := rfl
@[simp] theorem withAck_resetCount (a : Bool) : (s.withAck a).resetCount = s.resetCount := rfl
@[simp] theorem withAck_inputs (a : Bool) : (s.withAck a).inputs = s.inputs := rfl

@[simp] theorem withDrainBusy_convState (b : Bool) : (s.withDrainBusy b).convState = s.convState := rfl
@[simp] theorem withDrainBusy_convIdx (b : Bool) : (s.withDrainBusy b).convIdx = s.convIdx := rfl
@[simp] theorem withDrainBusy_convBase (b : Bool) : (s.withDrainBusy b).convBase = s.convBase := rfl
@[simp] theorem withDrainBusy_bb (b : Bool) : (s.withDrainBusy b).bb = s.bb := rfl
@[simp] theorem withDrainBusy_fbAddr (b : Bool) : (s.withDrainBusy b).fbAddr = s.fbAddr := rfl
@[simp] theorem withDrainBusy_sleepEntryKind (b : Bool) : (s.withDrainBusy b).sleepEntryKind = s.sleepEntryKind := rfl
@[simp] theorem withDrainBusy_errCode (b : Bool) : (s.withDrainBusy b).errCode = s.errCode := rfl
@[simp] theorem withDrainBusy_errOvf (b : Bool) : (s.withDrainBusy b).errOvf = s.errOvf := rfl
@[simp] theorem withDrainBusy_brightness (b : Bool) : (s.withDrainBusy b).brightness = s.brightness := rfl
@[simp] theorem withDrainBusy_duty (b : Bool) : (s.withDrainBusy b).duty = s.duty := rfl
@[simp] theorem withDrainBusy_displaySleep (b : Bool) : (s.withDrainBusy b).displaySleep = s.displaySleep := rfl
@[simp] theorem withDrainBusy_blState (b : Bool) : (s.withDrainBusy b).blState = s.blState := rfl
@[simp] theorem withDrainBusy_blPending (b : Bool) : (s.withDrainBusy b).blPending = s.blPending := rfl
@[simp] theorem withDrainBusy_slpReq (b : Bool) : (s.withDrainBusy b).slpReq = s.slpReq := rfl
@[simp] theorem withDrainBusy_slpKind (b : Bool) : (s.withDrainBusy b).slpKind = s.slpKind := rfl
@[simp] theorem withDrainBusy_drainBusy (b : Bool) : (s.withDrainBusy b).drainBusy = b := rfl
@[simp] theorem withDrainBusy_rdata (b : Bool) : (s.withDrainBusy b).rdata = s.rdata := rfl
@[simp] theorem withDrainBusy_rdData (b : Bool) : (s.withDrainBusy b).rdData = s.rdData := rfl
@[simp] theorem withDrainBusy_hostMem (b : Bool) : (s.withDrainBusy b).hostMem = s.hostMem := rfl
@[simp] theorem withDrainBusy_hrep (b : Bool) : (s.withDrainBusy b).hrep = s.hrep := rfl
@[simp] theorem withDrainBusy_readHung (b : Bool) : (s.withDrainBusy b).readHung = s.readHung := rfl
@[simp] theorem withDrainBusy_resetCount (b : Bool) : (s.withDrainBusy b).resetCount = s.resetCount := rfl
@[simp] theorem withDrainBusy_inputs (b : Bool) : (s.withDrainBusy b).inputs = s.inputs := rfl

@[simp] theorem withRdata_convState (w : Word) : (s.withRdata w).convState = s.convState := rfl
@[simp] theorem withRdata_convIdx (w : Word) : (s.withRdata w).convIdx = s.convIdx := rfl
@[simp] theorem withRdata_convBase (w : Word) : (s.withRdata w).convBase = s.convBase := rfl
@[simp] theorem withRdata_bb (w : Word) : (s.withRdata w).bb = s.bb := rfl
@[simp] theorem withRdata_fbAddr (w : Word) : (s.withRdata w).fbAddr = s.fbAddr := rfl
@[simp] theorem withRdata_sleepEntryKind (w : Word) : (s.withRdata w).sleepEntryKind = s.sleepEntryKind := rfl
@[simp] theorem withRdata_errCode (w : Word) : (s.withRdata w).errCode = s.errCode := rfl
@[simp] theorem withRdata_errOvf (w : Word) : (s.withRdata w).errOvf = s.errOvf := rfl
@[simp] theorem withRdata_brightness (w : Word) : (s.withRdata w).brightness = s.brightness := rfl
@[simp] theorem withRdata_duty (w : Word) : (s.withRdata w).duty = s.duty := rfl
@[simp] theorem withRdata_displaySleep (w : Word) : (s.withRdata w).displaySleep = s.displaySleep := rfl
@[simp] theorem withRdata_blState (w : Word) : (s.withRdata w).blState = s.blState := rfl
@[simp] theorem withRdata_blPending (w : Word) : (s.withRdata w).blPending = s.blPending := rfl
@[simp] theorem withRdata_slpReq (w : Word) : (s.withRdata w).slpReq = s.slpReq := rfl
@[simp] theorem withRdata_slpKind (w : Word) : (s.withRdata w).slpKind = s.slpKind := rfl
@[simp] theorem withRdata_drainBusy (w : Word) : (s.withRdata w).drainBusy = s.drainBusy := rfl
@[simp] theorem withRdata_rdata (w : Word) : (s.withRdata w).rdata = w := rfl
@[simp] theorem withRdata_rdData (w : Word) : (s.withRdata w).rdData = s.rdData := rfl
@[simp] theorem withRdata_hostMem (w : Word) : (s.withRdata w).hostMem = s.hostMem := rfl
@[simp] theorem withRdata_hrep (w : Word) : (s.withRdata w).hrep = s.hrep := rfl
@[simp] theorem withRdata_readHung (w : Word) : (s.withRdata w).readHung = s.readHung := rfl
@[simp] theorem withRdata_resetCount (w : Word) : (s.withRdata w).resetCount = s.resetCount := rfl
@[simp] theorem withRdata_inputs (w : Word) : (s.withRdata w).inputs = s.inputs := rfl

@[simp] theorem withRdData_convState (p : Pixel) : (s.withRdData p).convState = s.convState := rfl
@[simp] theorem withRdData_convIdx (p : Pixel) : (s.withRdData p).convIdx = s.convIdx := rfl
@[simp] theorem withRdData_convBase (p : Pixel) : (s.withRdData p).convBase = s.convBase := rfl
@[simp] theorem withRdData_bb (p : Pixel) : (s.withRdData p).bb = s.bb := rfl
@[simp] theorem withRdData_fbAddr (p : Pixel) : (s.withRdData p).fbAddr = s.fbAddr := rfl
@[simp] theorem withRdData_sleepEntryKind (p : Pixel) : (s.withRdData p).sleepEntryKind = s.sleepEntryKind := rfl
@[simp] theorem withRdData_errCode (p : Pixel) : (s.withRdData p).errCode = s.errCode := rfl
@[simp] theorem withRdData_errOvf (p : Pixel) : (s.withRdData p).errOvf = s.errOvf := rfl
@[simp] theorem withRdData_brightness (p : Pixel) : (s.withRdData p).brightness = s.brightness := rfl
@[simp] theorem withRdData_duty (p : Pixel) : (s.withRdData p).duty = s.duty := rfl
@[simp] theorem withRdData_displaySleep (p : Pixel) : (s.withRdData p).displaySleep = s.displaySleep := rfl
@[simp] theorem withRdData_blState (p : Pixel) : (s.withRdData p).blState = s.blState := rfl
@[simp] theorem withRdData_blPending (p : Pixel) : (s.withRdData p).blPending = s.blPending := rfl
@[simp] theorem withRdData_slpReq (p : Pixel) : (s.withRdData p).slpReq = s.slpReq := rfl
@[simp] theorem withRdData_slpKind (p : Pixel) : (s.withRdData p).slpKind = s.slpKind := rfl
@[simp] theorem withRdData_drainBusy (p : Pixel) : (s.withRdData p).drainBusy = s.drainBusy := rfl
@[simp] theorem withRdData_rdata (p : Pixel) : (s.withRdData p).rdata = s.rdata := rfl
@[simp] theorem withRdData_rdData (p : Pixel) : (s.withRdData p).rdData = p := rfl
@[simp] theorem withRdData_hostMem (p : Pixel) : (s.withRdData p).hostMem = s.hostMem := rfl
@[simp] theorem withRdData_hrep (p : Pixel) : (s.withRdData p).hrep = s.hrep := rfl
@[simp] theorem withRdData_readHung (p : Pixel) : (s.withRdData p).readHung = s.readHung := rfl
@[simp] theorem withRdData_resetCount (p : Pixel) : (s.withRdData p).resetCount = s.resetCount := rfl
@[simp] theorem withRdData_inputs (p : Pixel) : (s.withRdData p).inputs = s.inputs := rfl

@[simp] theorem withReadHung_convState (b : Bool) : (s.withReadHung b).convState = s.convState := rfl
@[simp] theorem withReadHung_convIdx (b : Bool) : (s.withReadHung b).convIdx = s.convIdx := rfl
@[simp] theorem withReadHung_convBase (b : Bool) : (s.withReadHung b).convBase = s.convBase := rfl
@[simp] theorem withReadHung_bb (b : Bool) : (s.withReadHung b).bb = s.bb := rfl
@[simp] theorem withReadHung_fbAddr (b : Bool) : (s.withReadHung b).fbAddr = s.fbAddr := rfl
@[simp] theorem withReadHung_sleepEntryKind (b : Bool) : (s.withReadHung b).sleepEntryKind = s.sleepEntryKind := rfl
@[simp] theorem withReadHung_errCode (b : Bool) : (s.withReadHung b).errCode = s.errCode := rfl
@[simp] theorem withReadHung_errOvf (b : Bool) : (s.withReadHung b).errOvf = s.errOvf := rfl
@[simp] theorem withReadHung_brightness (b : Bool) : (s.withReadHung b).brightness = s.brightness := rfl
@[simp] theorem withReadHung_duty (b : Bool) : (s.withReadHung b).duty = s.duty := rfl
@[simp] theorem withReadHung_displaySleep (b : Bool) : (s.withReadHung b).displaySleep = s.displaySleep := rfl
@[simp] theorem withReadHung_blState (b : Bool) : (s.withReadHung b).blState = s.blState := rfl
@[simp] theorem withReadHung_blPending (b : Bool) : (s.withReadHung b).blPending = s.blPending := rfl
@[simp] theorem withReadHung_slpReq (b : Bool) : (s.withReadHung b).slpReq = s.slpReq := rfl
@[simp] theorem withReadHung_slpKind (b : Bool) : (s.withReadHung b).slpKind = s.slpKind := rfl
@[simp] theorem withReadHung_drainBusy (b : Bool) : (s.withReadHung b).drainBusy = s.drainBusy := rfl
@[simp] theorem withReadHung_rdata (b : Bool) : (s.withReadHung b).rdata = s.rdata := rfl
@[simp] theorem withReadHung_rdData (b : Bool) : (s.withReadHung b).rdData = s.rdData := rfl
@[simp] theorem withReadHung_hostMem (b : Bool) : (s.withReadHung b).hostMem = s.hostMem := rfl
@[simp] theorem withReadHung_hrep (b : Bool) : (s.withReadHung b).hrep = s.hrep := rfl
@[simp] theorem withReadHung_readHung (b : Bool) : (s.withReadHung b).readHung = b := rfl
@[simp] theorem withReadHung_resetCount (b : Bool) : (s.withReadHung b).resetCount = s.resetCount := rfl
@[simp] theorem withReadHung_inputs (b : Bool) : (s.withReadHung b).inputs = s.inputs := rfl

@[simp] theorem withHostMem_convState (m : Memory) : (s.withHostMem m).convState = s.convState := rfl
@[simp] theorem withHostMem_convIdx (m : Memory) : (s.withHostMem m).convIdx = s.convIdx := rfl
@[simp] theorem withHostMem_convBase (m : Memory) : (s.withHostMem m).convBase = s.convBase := rfl
@[simp] theorem withHostMem_bb (m : Memory) : (s.withHostMem m).bb = s.bb := rfl
@[simp] theorem withHostMem_fbAddr (m : Memory) : (s.withHostMem m).fbAddr = s.fbAddr := rfl
@[simp] theorem withHostMem_sleepEntryKind (m : Memory) : (s.withHostMem m).sleepEntryKind = s.sleepEntryKind := rfl
@[simp] theorem withHostMem_errCode (m : Memory) : (s.withHostMem m).errCode = s.errCode := rfl
@[simp] theorem withHostMem_errOvf (m : Memory) : (s.withHostMem m).errOvf = s.errOvf := rfl
@[simp] theorem withHostMem_brightness (m : Memory) : (s.withHostMem m).brightness = s.brightness := rfl
@[simp] theorem withHostMem_duty (m : Memory) : (s.withHostMem m).duty = s.duty := rfl
@[simp] theorem withHostMem_displaySleep (m : Memory) : (s.withHostMem m).displaySleep = s.displaySleep := rfl
@[simp] theorem withHostMem_blState (m : Memory) : (s.withHostMem m).blState = s.blState := rfl
@[simp] theorem withHostMem_blPending (m : Memory) : (s.withHostMem m).blPending = s.blPending := rfl
@[simp] theorem withHostMem_slpReq (m : Memory) : (s.withHostMem m).slpReq = s.slpReq := rfl
@[simp] theorem withHostMem_slpKind (m : Memory) : (s.withHostMem m).slpKind = s.slpKind := rfl
@[simp] theorem withHostMem_drainBusy (m : Memory) : (s.withHostMem m).drainBusy = s.drainBusy := rfl
@[simp] theorem withHostMem_rdata (m : Memory) : (s.withHostMem m).rdata = s.rdata := rfl
@[simp] theorem withHostMem_rdData (m : Memory) : (s.withHostMem m).rdData = s.rdData := rfl
@[simp] theorem withHostMem_hostMem (m : Memory) : (s.withHostMem m).hostMem = m := rfl
@[simp] theorem withHostMem_hrep (m : Memory) : (s.withHostMem m).hrep = s.hrep := rfl
@[simp] theorem withHostMem_readHung (m : Memory) : (s.withHostMem m).readHung = s.readHung := rfl
@[simp] theorem withHostMem_resetCount (m : Memory) : (s.withHostMem m).resetCount = s.resetCount := rfl
@[simp] theorem withHostMem_inputs (m : Memory) : (s.withHostMem m).inputs = s.inputs := rfl

/-! Recording a command error writes ERR only (R212). -/

@[simp] theorem raiseCmdError_convState (c : ErrCode) : (raiseCmdError c s).convState = s.convState := by
  unfold raiseCmdError; split <;> rfl
@[simp] theorem raiseCmdError_convIdx (c : ErrCode) : (raiseCmdError c s).convIdx = s.convIdx := by
  unfold raiseCmdError; split <;> rfl
@[simp] theorem raiseCmdError_convBase (c : ErrCode) : (raiseCmdError c s).convBase = s.convBase := by
  unfold raiseCmdError; split <;> rfl
@[simp] theorem raiseCmdError_bb (c : ErrCode) : (raiseCmdError c s).bb = s.bb := by
  unfold raiseCmdError; split <;> rfl
@[simp] theorem raiseCmdError_fbAddr (c : ErrCode) : (raiseCmdError c s).fbAddr = s.fbAddr := by
  unfold raiseCmdError; split <;> rfl
@[simp] theorem raiseCmdError_sleepEntryKind (c : ErrCode) : (raiseCmdError c s).sleepEntryKind = s.sleepEntryKind := by
  unfold raiseCmdError; split <;> rfl
@[simp] theorem raiseCmdError_brightness (c : ErrCode) : (raiseCmdError c s).brightness = s.brightness := by
  unfold raiseCmdError; split <;> rfl
@[simp] theorem raiseCmdError_duty (c : ErrCode) : (raiseCmdError c s).duty = s.duty := by
  unfold raiseCmdError; split <;> rfl
@[simp] theorem raiseCmdError_displaySleep (c : ErrCode) : (raiseCmdError c s).displaySleep = s.displaySleep := by
  unfold raiseCmdError; split <;> rfl
@[simp] theorem raiseCmdError_blState (c : ErrCode) : (raiseCmdError c s).blState = s.blState := by
  unfold raiseCmdError; split <;> rfl
@[simp] theorem raiseCmdError_blPending (c : ErrCode) : (raiseCmdError c s).blPending = s.blPending := by
  unfold raiseCmdError; split <;> rfl
@[simp] theorem raiseCmdError_slpReq (c : ErrCode) : (raiseCmdError c s).slpReq = s.slpReq := by
  unfold raiseCmdError; split <;> rfl
@[simp] theorem raiseCmdError_slpKind (c : ErrCode) : (raiseCmdError c s).slpKind = s.slpKind := by
  unfold raiseCmdError; split <;> rfl
@[simp] theorem raiseCmdError_drainBusy (c : ErrCode) : (raiseCmdError c s).drainBusy = s.drainBusy := by
  unfold raiseCmdError; split <;> rfl
@[simp] theorem raiseCmdError_rdata (c : ErrCode) : (raiseCmdError c s).rdata = s.rdata := by
  unfold raiseCmdError; split <;> rfl
@[simp] theorem raiseCmdError_rdData (c : ErrCode) : (raiseCmdError c s).rdData = s.rdData := by
  unfold raiseCmdError; split <;> rfl
@[simp] theorem raiseCmdError_hostMem (c : ErrCode) : (raiseCmdError c s).hostMem = s.hostMem := by
  unfold raiseCmdError; split <;> rfl
@[simp] theorem raiseCmdError_hrep (c : ErrCode) : (raiseCmdError c s).hrep = s.hrep := by
  unfold raiseCmdError; split <;> rfl
@[simp] theorem raiseCmdError_readHung (c : ErrCode) : (raiseCmdError c s).readHung = s.readHung := by
  unfold raiseCmdError; split <;> rfl
@[simp] theorem raiseCmdError_resetCount (c : ErrCode) : (raiseCmdError c s).resetCount = s.resetCount := by
  unfold raiseCmdError; split <;> rfl
@[simp] theorem raiseCmdError_inputs (c : ErrCode) : (raiseCmdError c s).inputs = s.inputs := by
  unfold raiseCmdError; split <;> rfl

end Sys2Proof.Machine
end

