-- ==== Sys2Proof/Laws/Cells.lean ====
section
/-! SUPPORT. Lists of cells: read after write, other cells left alone, the canonical form kept; host memory and the
back-buffer follow. -/

namespace Sys2Proof.Machine

section cells

variable {α : Type}

theorem cellLookup_cellInsert_self (k : Nat) (v : α) (l : List (Nat × α)) :
    cellLookup k (cellInsert k v l) = some v := by
  induction l with
  | nil => simp [cellInsert, cellLookup]
  | cons p rest ih =>
    obtain ⟨a, w⟩ := p
    unfold cellInsert
    split
    · simp [cellLookup]
    · split
      · simp [cellLookup]
      · rename_i hne
        simp [cellLookup, hne, ih]

theorem cellLookup_cellInsert_ne {j k : Nat} (h : j ≠ k) (v : α) (l : List (Nat × α)) :
    cellLookup j (cellInsert k v l) = cellLookup j l := by
  induction l with
  | nil => simp [cellInsert, cellLookup, h]
  | cons p rest ih =>
    obtain ⟨a, w⟩ := p
    unfold cellInsert
    split
    · simp [cellLookup, h]
    · split
      · rename_i hka
        subst hka
        simp [cellLookup, h]
      · simp [cellLookup, ih]

/-- Everything listed after an insertion was inserted or listed before. -/
theorem mem_cellInsert {k : Nat} {v : α} {l : List (Nat × α)} {p : Nat × α} (h : p ∈ cellInsert k v l) :
    p = (k, v) ∨ p ∈ l := by
  induction l with
  | nil => simpa [cellInsert] using h
  | cons q rest ih =>
    obtain ⟨a, w⟩ := q
    unfold cellInsert at h
    split at h
    · simpa using h
    · split at h
      · rcases List.mem_cons.1 h with h | h
        · exact .inl h
        · exact .inr (List.mem_cons_of_mem _ h)
      · rcases List.mem_cons.1 h with h | h
        · exact .inr (h ▸ List.mem_cons_self)
        · exact (ih h).imp_right (List.mem_cons_of_mem _)

theorem cellsRising_cellInsert (k : Nat) (v : α) {l : List (Nat × α)} (h : cellsRising l) :
    cellsRising (cellInsert k v l) := by
  induction l with
  | nil => simp [cellInsert, cellsRising]
  | cons q rest ih =>
    obtain ⟨a, w⟩ := q
    obtain ⟨hlow, hrest⟩ := List.pairwise_cons.1 h
    unfold cellInsert
    split
    · rename_i hka
      refine List.pairwise_cons.2 ⟨fun p hp => ?_, h⟩
      rcases List.mem_cons.1 hp with rfl | hp
      · exact hka
      · exact Nat.lt_trans hka (hlow p hp)
    · split
      · rename_i hka
        subst hka
        exact List.pairwise_cons.2 ⟨hlow, hrest⟩
      · refine List.pairwise_cons.2 ⟨fun p hp => ?_, ih hrest⟩
        rcases mem_cellInsert hp with rfl | hp
        · simp only; omega
        · exact hlow p hp

theorem cellsBelow_cellInsert {n k : Nat} (hk : k < n) (v : α) {l : List (Nat × α)} (h : cellsBelow n l) :
    cellsBelow n (cellInsert k v l) := by
  intro p hp
  rcases mem_cellInsert hp with rfl | hp
  · exact hk
  · exact h p hp

end cells

/-! ## Host memory -/

theorem memByte_memPut_self (m : Memory) (a : Nat) (b : Byte) : memByte (memPut m a b) a = some b := by
  simp [memByte, memPut, cellLookup_cellInsert_self]

theorem memByte_memPut_ne {a c : Nat} (h : c ≠ a) (m : Memory) (b : Byte) :
    memByte (memPut m a b) c = memByte m c := by
  simp [memByte, memPut, cellLookup_cellInsert_ne h]

/-- A host store of one byte: what an address then reads as (R70, R74). -/
theorem memByte_memWrite (m : Memory) (a c : Nat) (b : Byte) :
    memByte (memWrite m a b) c = if c = a ∧ (memByte m a).isSome then some b else memByte m c := by
  unfold memWrite
  match h : memByte m a with
  | none => simp
  | some v =>
    by_cases hc : c = a
    · subst hc; simp [memByte_memPut_self]
    · simp [hc, memByte_memPut_ne hc]

/-- A host store changes no byte's answering. -/
theorem memByte_memWrite_isSome (m : Memory) (a c : Nat) (b : Byte) :
    (memByte (memWrite m a b) c).isSome = (memByte m c).isSome := by
  rw [memByte_memWrite]
  split
  · rename_i h
    simp [h.1, h.2]
  · rfl

theorem memPut_wf {m : Memory} (h : Memory.wf m) (a : Word) (b : Byte) : Memory.wf (memPut m a.toNat b) :=
  ⟨cellsRising_cellInsert _ _ h.1, cellsBelow_cellInsert a.isLt _ h.2⟩

theorem memWrite_wf {m : Memory} (h : Memory.wf m) (a : Word) (b : Byte) : Memory.wf (memWrite m a.toNat b) := by
  unfold memWrite
  split
  · exact memPut_wf h a b
  · exact h

/-- Mapping one byte: what an address then reads as (R74). -/
theorem memByte_memInit (m : Memory) (a c : Nat) (b : Byte) :
    memByte (memInit m a b) c = if c = a ∧ memByte m a = none then some b else memByte m c := by
  unfold memInit
  match h : memByte m a with
  | some v => simp
  | none =>
    by_cases hc : c = a
    · subst hc; simp [memByte_memPut_self]
    · simp [hc, memByte_memPut_ne hc]

theorem memInit_wf {m : Memory} (h : Memory.wf m) (a : Word) (b : Byte) : Memory.wf (memInit m a.toNat b) := by
  unfold memInit
  split
  · exact h
  · exact memPut_wf h a b

/-- A host store changes no address's answering (R70). -/
theorem memByte_memStore_isSome (bytes : List Byte) (m : Memory) (addr : Word) (c : Nat) :
    (memByte (memStore m addr bytes) c).isSome = (memByte m c).isSome := by
  induction bytes generalizing m addr with
  | nil => rfl
  | cons b bs ih => rw [memStore, ih, memByte_memWrite_isSome]

/-- Mapping keeps memory's canonical form. -/
theorem memMap_wf (bytes : List Byte) {m : Memory} (h : Memory.wf m) (addr : Word) :
    Memory.wf (memMap m addr bytes) := by
  induction bytes generalizing m addr with
  | nil => exact h
  | cons b bs ih => exact ih (memInit_wf h addr b) _

/-- Mapping leaves a byte that answers as it is (R74). -/
theorem memByte_memMap_of_answers (bytes : List Byte) {m : Memory} (addr : Word) {c : Nat} {v : Byte}
    (h : memByte m c = some v) : memByte (memMap m addr bytes) c = some v := by
  induction bytes generalizing m addr with
  | nil => exact h
  | cons b bs ih =>
    refine ih _ ?_
    rw [memByte_memInit, if_neg]
    · exact h
    · rintro ⟨rfl, hn⟩
      rw [h] at hn
      cases hn

/-- A host store keeps memory's canonical form. -/
theorem memStore_wf (bytes : List Byte) {m : Memory} (h : Memory.wf m) (addr : Word) :
    Memory.wf (memStore m addr bytes) := by
  induction bytes generalizing m addr with
  | nil => exact h
  | cons b bs ih => exact ih (memWrite_wf h addr b) _

/-- A byte that no stored byte lies on is left alone. -/
theorem memByte_memStore_of_avoid (bytes : List Byte) (m : Memory) (addr c : Word)
    (h : ∀ k < bytes.length, addr + BitVec.ofNat 32 k ≠ c) :
    memByte (memStore m addr bytes) c.toNat = memByte m c.toNat := by
  induction bytes generalizing m addr with
  | nil => rfl
  | cons b bs ih =>
    have hhead : c.toNat ≠ addr.toNat := by
      intro hc
      exact h 0 (by simp) (by simpa using (BitVec.eq_of_toNat_eq hc).symm)
    rw [memStore, ih, memByte_memWrite, if_neg (fun h => hhead h.1)]
    intro k hk hkc
    refine h (k + 1) (by simpa using hk) ?_
    rw [← hkc, Nat.add_comm, BitVec.ofNat_add, BitVec.add_assoc]
    rfl

/-- A byte that no mapped byte lies on is left alone. -/
theorem memByte_memMap_of_avoid (bytes : List Byte) (m : Memory) (addr c : Word)
    (h : ∀ k < bytes.length, addr + BitVec.ofNat 32 k ≠ c) :
    memByte (memMap m addr bytes) c.toNat = memByte m c.toNat := by
  induction bytes generalizing m addr with
  | nil => rfl
  | cons b bs ih =>
    have hhead : c.toNat ≠ addr.toNat := by
      intro hc
      exact h 0 (by simp) (by simpa using (BitVec.eq_of_toNat_eq hc).symm)
    rw [memMap, ih, memByte_memInit, if_neg (fun h => hhead h.1)]
    intro k hk hkc
    refine h (k + 1) (by simpa using hk) ?_
    rw [← hkc, Nat.add_comm, BitVec.ofNat_add, BitVec.add_assoc]
    rfl

/-- The four bytes of an answered pixel read (R67). -/
theorem memRead_four (m : Memory) (a : Word) (r g b p : Byte) :
    memRead m a 4 = some [r, g, b, p] ↔
      memByte m a.toNat = some r ∧ memByte m (a + 1).toNat = some g ∧
      memByte m (a + 1 + 1).toNat = some b ∧ memByte m (a + 1 + 1 + 1).toNat = some p := by
  simp only [memRead]
  cases memByte m a.toNat <;> cases memByte m (a + 1).toNat <;> cases memByte m (a + 1 + 1).toNat <;>
    cases memByte m (a + 1 + 1 + 1).toNat <;> simp

/-- A read of n bytes that answers gives n of them. -/
theorem memRead_length {m : Memory} {n : Nat} {a : Word} {bs : List Byte} (h : memRead m a n = some bs) :
    bs.length = n := by
  induction n generalizing a bs with
  | zero => simp only [memRead, Option.some.injEq] at h; simp [← h]
  | succ n ih =>
    rw [memRead] at h
    split at h
    · rename_i hrest
      simp only [Option.some.injEq] at h
      simp [← h, ih hrest]
    · cases h

/-! ## The back-buffer -/

theorem cellLookup_bbWrite (cells : List Nat) (b : BackBuffer) (p : Pixel) (c : Nat) :
    cellLookup c (bbWrite b cells p) = if c ∈ cells then some p else cellLookup c b := by
  induction cells generalizing b with
  | nil => simp [bbWrite]
  | cons i is ih =>
    have hstep : bbWrite b (i :: is) p = bbWrite (cellInsert i p b) is p := rfl
    rw [hstep, ih]
    by_cases hc : c ∈ is
    · simp [hc]
    · by_cases hi : c = i
      · subst hi; simp [hc, cellLookup_cellInsert_self]
      · simp [hc, hi, cellLookup_cellInsert_ne hi]

theorem bbWrite_wf {h : Hrep} {cells : List Nat} {b : BackBuffer} (p : Pixel) (hb : backBufferWf h b)
    (hc : ∀ c ∈ cells, c < Config.dstN h) : backBufferWf h (bbWrite b cells p) := by
  induction cells generalizing b with
  | nil => exact hb
  | cons i is ih =>
    exact ih ⟨cellsRising_cellInsert _ _ hb.1, cellsBelow_cellInsert (hc i (by simp)) _ hb.2⟩
      fun c hmem => hc c (by simp [hmem])

/-- What a cell reads as after cells are written: the new pixel, or what it read as before. -/
theorem bbRead_withBb_bbWrite (s : State) (cells : List Nat) (p : Pixel) (c : Nat) :
    bbRead (s.withBb (bbWrite s.bb cells p)) c = if c ∈ cells then p else bbRead s c := by
  simp only [bbRead, withBb_bb, withBb_resetCount, cellLookup_bbWrite]
  by_cases h : c ∈ cells <;> simp [h]

/-- A cell's value depends on the back-buffer and the reset count alone. -/
theorem bbRead_congr {s t : State} (hb : t.bb = s.bb) (hr : t.resetCount = s.resetCount) (c : Nat) :
    bbRead t c = bbRead s c := by
  simp [bbRead, hb, hr]

end Sys2Proof.Machine
end

