-- ==== Sys2Proof/Laws/Decode.lean ====
section
/-! SUPPORT. The fields of a command word as arithmetic on the word (R90), and the bits a register write keeps. -/

namespace Sys2Proof

theorem cmdOp_toNat (w : Word) : (cmdOp w).toNat = w.toNat / 2 ^ 24 := by
  have := w.isLt
  simp only [cmdOp, BitVec.extractLsb'_toNat, Nat.shiftRight_eq_div_pow]
  omega

theorem cmdRsv_toNat (w : Word) : (cmdRsv w).toNat = w.toNat / 2 ^ 8 % 2 ^ 16 := by
  simp only [cmdRsv, BitVec.extractLsb'_toNat, Nat.shiftRight_eq_div_pow]

theorem cmdArg_toNat (w : Word) : (cmdArg w).toNat = w.toNat % 2 ^ 8 := by
  simp [cmdArg, BitVec.extractLsb'_toNat]

/-- Bit 0 of a written word, as ERR and CONFIG take it (R195, R199). -/
theorem bitZero_eq (d : Word) : d.getLsbD 0 = decide (d.toNat % 2 = 1) := by
  simp [BitVec.getLsbD, Nat.testBit_zero]

end Sys2Proof
end

