-- ==== Sys2Proof/Laws/Ops.lean ====
section
/-! SUPPORT. For each shared operation one lemma that says once everything it can do. -/

namespace Sys2Proof.Machine

/-- Recording an error (R212). -/
theorem raiseCmdError_cases (c : ErrCode) (s : State) :
    (s.errCode = .noError ∧ raiseCmdError c s = s.withErr c s.errOvf) ∨
      (s.errCode ≠ .noError ∧ raiseCmdError c s = s.withErr s.errCode true) := by
  unfold raiseCmdError
  split
  · exact .inl ⟨‹_›, rfl⟩
  · exact .inr ⟨‹_›, rfl⟩

/-- The acceptance step of CONVERT (R130). -/
theorem acceptConvert_cases (s : State) :
    (s.convState = .idle ∧ acceptConvert s = s.withConv .waitDrain 0 (fbBaseWord s)) ∨
      (s.convState ≠ .idle ∧ acceptConvert s = raiseCmdError .convBusy s) := by
  unfold acceptConvert
  split
  · exact .inl ⟨‹_›, rfl⟩
  · exact .inr ⟨‹_›, rfl⟩

/-- The acceptance step of SET_BACKLIGHT (R154): rejected, or one of the four cases. -/
theorem acceptSetBacklight_cases (b : Byte) (s : State) :
    (s.blState ≠ .idle ∧ acceptSetBacklight b s = raiseCmdError .blBusy s) ∨
    (s.blState = .idle ∧ s.displaySleep = false ∧ b ≠ 0#8 ∧
      acceptSetBacklight b s = (s.withBrightness b).withDuty (gammaLut b)) ∨
    (s.blState = .idle ∧ s.displaySleep = false ∧ b = 0#8 ∧
      acceptSetBacklight b s = ((s.withBrightness b).withDuty 0#16).withRequest s.sleepEntryKind .sleepWait) ∨
    (s.blState = .idle ∧ s.displaySleep = true ∧ b = 0#8 ∧
      acceptSetBacklight b s = (s.withBrightness b).withDuty 0#16) ∨
    (s.blState = .idle ∧ s.displaySleep = true ∧ b ≠ 0#8 ∧
      acceptSetBacklight b s = ((s.withBrightness b).withPending b).withRequest .leaveSleep .wakeWait) := by
  unfold acceptSetBacklight applyBrightness
  by_cases hi : s.blState = .idle
  · by_cases hd : s.displaySleep = true
    · by_cases hb : b = 0#8 <;> simp [hi, hd, hb]
    · by_cases hb : b = 0#8 <;> simp [hi, hd, hb]
  · simp [hi]

/-- What an acknowledge can do (R202). -/
theorem acknowledge_cases (s : State) :
    (s.blState = .idle ∧ acknowledge s = s) ∨
    (s.blState = .sleepWait ∧ acknowledge s = s.withAck true) ∨
    (s.blState = .wakeWait ∧ acknowledge s = (s.withAck false).withDuty (gammaLut s.blPending)) := by
  cases h : s.blState <;> simp [acknowledge, finishSleepEntry, finishWake, h]

/-- What a write to CMD can do (R190). -/
theorem writeCmd_cases (w : Word) (s : State) :
    (∃ code, decodeCmd w = .error code ∧ writeCmd w s = raiseCmdError code s) ∨
    (decodeCmd w = .ok .convert ∧ writeCmd w s = acceptConvert s) ∨
    (∃ b, decodeCmd w = .ok (.setBacklight b) ∧ writeCmd w s = acceptSetBacklight b s) := by
  unfold writeCmd
  match h : decodeCmd w with
  | .error code => exact .inl ⟨code, rfl, rfl⟩
  | .ok .convert => exact .inr (.inl ⟨rfl, rfl⟩)
  | .ok (.setBacklight b) => exact .inr (.inr ⟨b, rfl, rfl⟩)

/-- The pixel step: all four bytes answer and the pixel is converted, or the unit is stuck (R132, R70). -/
theorem pixelStep_cases (h : Hrep) (s : State) :
    (∃ r g b p, pixelRead s = some [r, g, b, p] ∧
      pixelStep h s =
        (pixelDone s).withBb (bbWrite s.bb (destCells h (pixelX s.convIdx) (pixelY s.convIdx)) (pack r g b))) ∨
    (pixelRead s = none ∧ pixelStep h s = s.withReadHung true) := by
  match hm : pixelRead s with
  | none => exact .inr ⟨rfl, by simp [pixelStep, hm]⟩
  | some bs =>
    match bs, memRead_length hm with
    | [r, g, b, p], _ => exact .inl ⟨r, g, b, p, rfl, by simp [pixelStep, hm]⟩

/-- When a pixel read is due. -/
theorem pixelDue_iff (s : State) :
    pixelDue s = true ↔ s.convState = .converting ∧ s.readHung = false ∧ s.convIdx < Config.srcN := by
  simp [pixelDue, and_assoc]

/-- What a turn of the converter can do (R131, R132, R70). -/
theorem convTurn_cases (s : State) :
    convTurn s = s ∨
    (s.convState = .waitDrain ∧ s.drainBusy = false ∧ convTurn s = s.withConv .converting s.convIdx s.convBase) ∨
    (s.convState = .converting ∧ s.readHung = false ∧ s.convIdx < Config.srcN ∧
      ∃ r g b p, pixelRead s = some [r, g, b, p] ∧
        convTurn s = (pixelDone s).withBb
          (bbWrite s.bb (destCells s.hrep (pixelX s.convIdx) (pixelY s.convIdx)) (pack r g b))) ∨
    (s.convState = .converting ∧ s.readHung = false ∧ s.convIdx < Config.srcN ∧ pixelRead s = none ∧
      convTurn s = s.withReadHung true) := by
  match hc : s.convState with
  | .idle => exact .inl (by simp [convTurn, hc])
  | .waitDrain =>
    match hd : s.drainBusy with
    | true => exact .inl (by simp [convTurn, interlockStep, hc, hd])
    | false => exact .inr (.inl ⟨rfl, rfl, by simp [convTurn, interlockStep, hc, hd]⟩)
  | .converting =>
    match hp : pixelDue s with
    | true =>
      have hturn : convTurn s = pixelStep s.hrep s := by simp [convTurn, hc, hp]
      obtain ⟨-, hh, hi⟩ := (pixelDue_iff s).1 hp
      rcases pixelStep_cases s.hrep s with ⟨r, g, b, p, hm, hstep⟩ | ⟨hm, hstep⟩
      · exact .inr (.inr (.inl ⟨rfl, hh, hi, r, g, b, p, hm, hturn.trans hstep⟩))
      · exact .inr (.inr (.inr ⟨rfl, hh, hi, hm, hturn.trans hstep⟩))
    | false => exact .inl (by simp [convTurn, hc, hp])

/-- What losing a read can do (R70). -/
theorem loseRead_cases (s : State) :
    (pixelDue s = true ∧ loseRead s = s.withReadHung true) ∨ (pixelDue s = false ∧ loseRead s = s) := by
  cases h : pixelDue s <;> simp [loseRead, h]

/-- The cells of a source pixel, spelt out (R123). -/
theorem mem_destCells (h : Hrep) (x y c : Nat) :
    c ∈ destCells h x y ↔
      ∃ dy < Config.vrep, ∃ dx < h.val, c = (Config.vrep * y + dy) * Config.dstW h + h.val * x + dx := by
  simp only [destCells, List.mem_flatMap, List.mem_map, List.mem_range]
  constructor
  · rintro ⟨dy, hdy, dx, hdx, rfl⟩
    exact ⟨dy, hdy, dx, hdx, rfl⟩
  · rintro ⟨dy, hdy, dx, hdx, rfl⟩
    exact ⟨dy, hdy, dx, hdx, rfl⟩

/-- What running a request can do: an instruction, an error of R95 recorded, or a refusal. -/
theorem runRequest_cases (r : Request) (s : State) :
    (∃ i, decode s.hrep r = .ok i ∧ runRequest r s = exec i s) ∨
    (∃ code, decode s.hrep r = .error (.command code) ∧ runRequest r s = .next (raiseCmdError code s)) ∨
    (decode s.hrep r = .error .unsupportedAccess ∧ runRequest r s = .refused .unsupportedAccess) ∨
    (decode s.hrep r = .error .drainIndexOutOfRange ∧ runRequest r s = .refused .drainIndexOutOfRange) := by
  unfold runRequest
  match h : decode s.hrep r with
  | .ok i => exact .inl ⟨i, rfl, rfl⟩
  | .error (.command code) => exact .inr (.inl ⟨code, rfl, rfl⟩)
  | .error .unsupportedAccess => exact .inr (.inr (.inl ⟨rfl, rfl⟩))
  | .error .drainIndexOutOfRange => exact .inr (.inr (.inr ⟨rfl, rfl⟩))

end Sys2Proof.Machine
end

