-- ==== Sys2Proof/Laws/PerInstr.lean ====
section
/-! SUPPORT. The family EncodeSupported: the encoder's request of a well-formed instruction is one the decoder has a
row for. One lemma per constructor. -/

namespace Sys2Proof.Laws.EncodeSupported

/-- The family's statement of one instruction. -/
def Statement (i : Instr) : Prop := ∀ h : Hrep, i.wellFormed h = true → (encode i).supported h = true

theorem convert : Statement .convert := fun _ _ => rfl
theorem setBacklight (b : Byte) : Statement (.setBacklight b) := fun _ _ => rfl
theorem wrCmd (d : Word) : Statement (.wrCmd d) := fun _ _ => rfl
theorem rdCmd : Statement .rdCmd := fun _ _ => rfl
theorem rdStatus : Statement .rdStatus := fun _ _ => rfl
theorem wrStatus (d : Word) : Statement (.wrStatus d) := fun _ _ => rfl
theorem rdErr : Statement .rdErr := fun _ _ => rfl
theorem wrErr (d : Word) : Statement (.wrErr d) := fun _ _ => rfl
theorem rdFbBase : Statement .rdFbBase := fun _ _ => rfl
theorem wrFbBase (d : Word) : Statement (.wrFbBase d) := fun _ _ => rfl
theorem rdConfig : Statement .rdConfig := fun _ _ => rfl
theorem wrConfig (d : Word) : Statement (.wrConfig d) := fun _ _ => rfl
theorem rdBrightness : Statement .rdBrightness := fun _ _ => rfl
theorem wrBrightness (d : Word) : Statement (.wrBrightness d) := fun _ _ => rfl
theorem rdDuty : Statement .rdDuty := fun _ _ => rfl
theorem wrDuty (d : Word) : Statement (.wrDuty d) := fun _ _ => rfl
theorem rdRsvd : Statement .rdRsvd := fun _ _ => rfl
theorem wrRsvd (d : Word) : Statement (.wrRsvd d) := fun _ _ => rfl
theorem drainRd (rdIdx : Nat) : Statement (.drainRd rdIdx) := fun _ hw => hw
theorem drainStart : Statement .drainStart := fun _ _ => rfl
theorem drainEnd : Statement .drainEnd := fun _ _ => rfl
theorem slpAck : Statement .slpAck := fun _ _ => rfl

end Sys2Proof.Laws.EncodeSupported
end

