-- ==== Sys2Proof/Laws/Step.lean ====
section
/-! SUPPORT. What one event and one step can do, said once: every invariant and whole-machine rule is a case split over
`runEvent_cases`. -/

namespace Sys2Proof.Machine

/-- A supported offset names a register, and that register's offset is it. -/
theorem regAt_eq_some {o : BitVec 5} {g : Reg} : regAt o = some g ↔ o = regOffset g := by
  revert o g
  intro o g
  cases g <;> revert o <;> decide

/-- An offset that is not a multiple of 4 names no register (R66). -/
theorem regAt_eq_none (o : BitVec 5) : regAt o = none ↔ o.toNat % 4 ≠ 0 := by
  revert o
  decide

/-- A decoded register access is a supported read or write of a register. -/
theorem decodeAccess_ok {a : Access} {i : Instr} (h : decodeAccess a = .ok i) :
    (∃ g, Request.mmio a = readOf g ∧ i = readInstr g) ∨
      (∃ g d, Request.mmio a = writeOf g d ∧ i = writeInstr d g) := by
  match a with
  | .read width offset =>
    by_cases hw : width = 4
    · match hr : regAt offset with
      | some g =>
        simp only [decodeAccess, hw, hr, if_true, Except.ok.injEq] at h
        exact .inl ⟨g, by rw [readOf, hw, regAt_eq_some.1 hr], h.symm⟩
      | none => simp [decodeAccess, hw, hr] at h
    · simp [decodeAccess, hw] at h
  | .write width offset d =>
    by_cases hw : width = 4
    · match hr : regAt offset with
      | some g =>
        simp only [decodeAccess, hw, hr, if_true, Except.ok.injEq] at h
        exact .inr ⟨g, d, by rw [writeOf, hw, regAt_eq_some.1 hr], h.symm⟩
      | none => simp [decodeAccess, hw, hr] at h
    · simp [decodeAccess, hw] at h

/-- What a command, a write to CMD in either format, can leave (R190, R212). -/
def CommandResult (s t : State) : Prop :=
  (∃ code, t = raiseCmdError code s) ∨ t = acceptConvert s ∨ ∃ b, t = acceptSetBacklight b s

theorem writeCmd_result (w : Word) (s : State) : CommandResult s (writeCmd w s) := by
  rcases writeCmd_cases w s with ⟨code, -, h⟩ | ⟨-, h⟩ | ⟨b, -, h⟩
  · exact .inl ⟨code, h⟩
  · exact .inr (.inl h)
  · exact .inr (.inr ⟨b, h⟩)

/-- What a register access other than a command, or a port event, can leave. -/
inductive AccessResult (s : State) : Event → State → Prop
  | read (g : Reg) (w : Word) : AccessResult s (.request (readOf g)) (s.withRdata w)
  | ignored (g : Reg) (d : Word) (hg : g ≠ .cmd) (he : g = .err → d.getLsbD 0 = false)
      (hf : g ≠ .fbBase) (hc : g ≠ .config) : AccessResult s (.request (writeOf g d)) s
  | clear (d : Word) (h : d.getLsbD 0 = true) : AccessResult s (.request (writeOf .err d)) (clearErr s)
  | base (d : Word) : AccessResult s (.request (writeOf .fbBase d)) (s.withFbAddr (d.extractLsb' 2 30))
  | config (d : Word) : AccessResult s (.request (writeOf .config d))
      (s.withSleepEntryKind (sleepKindOfBit (d.getLsbD 0)))
  | drainRead (i : Nat) (h : i < Config.dstN s.hrep) : AccessResult s (.request (.port (.drainRead i)))
      (s.withRdData (bbRead s i))
  | drainStart : AccessResult s (.request (.port .drainBusyRise)) (s.withDrainBusy true)
  | drainEnd : AccessResult s (.request (.port .drainBusyFall)) (s.withDrainBusy false)
  | ack (h : s.slpReq = true) : AccessResult s (.request (.port .slpAck)) (acknowledge s)

/-- A read's result. -/
theorem exec_readInstr (g : Reg) (s : State) : ∃ w, exec (readInstr g) s = .next (s.withRdata w) := by
  cases g <;> exact ⟨_, rfl⟩

/-- Everything one event can do where it leaves a next state. -/
inductive EventResult (s : State) : Event → State → Prop
  | reset : EventResult s .reset (resetMachine s)
  | hostStore (addr : Word) (bytes : List Byte) : EventResult s (.hostStore addr bytes) (hostStore addr bytes s)
  | mapMemory (addr : Word) (bytes : List Byte) : EventResult s (.mapMemory addr bytes) (mapMemory addr bytes s)
  | readLost : EventResult s .readLost (loseRead s)
  | turn : EventResult s .convTurn (convTurn s)
  | command {e : Event} {t : State} (he : isCommand e) (ht : CommandResult s t) : EventResult s e t
  | access {e : Event} {t : State} (h : AccessResult s e t) : EventResult s e t

theorem runEvent_cases {e : Event} {s t : State} (h : runEvent e s = .next t) : EventResult s e t := by
  match e with
  | .reset => simp only [runEvent, Host.Outcome.next.injEq] at h; exact h ▸ .reset
  | .hostStore addr bytes => simp only [runEvent, Host.Outcome.next.injEq] at h; exact h ▸ .hostStore addr bytes
  | .mapMemory addr bytes => simp only [runEvent, Host.Outcome.next.injEq] at h; exact h ▸ .mapMemory addr bytes
  | .readLost => simp only [runEvent, Host.Outcome.next.injEq] at h; exact h ▸ .readLost
  | .convTurn => simp only [runEvent, Host.Outcome.next.injEq] at h; exact h ▸ .turn
  | .request (.cmd w) =>
    refine .command (.inl ⟨w, rfl⟩) ?_
    have hw : runEvent (.request (.cmd w)) s = .next (writeCmd w s) := by
      simp only [runEvent, runRequest, decode, writeCmd]
      match decodeCmd w with
      | .error code => rfl
      | .ok .convert => rfl
      | .ok (.setBacklight b) => rfl
    rw [hw, Host.Outcome.next.injEq] at h
    exact h ▸ writeCmd_result w s
  | .request (.mmio a) =>
    match hd : decodeAccess a with
    | .error err =>
      exfalso
      have herr : err = .unsupportedAccess := by
        cases a <;> simp only [decodeAccess] at hd <;> split at hd <;> try split at hd
        all_goals first | cases hd; rfl | cases hd
      subst herr
      simp [runEvent, runRequest, decode, hd, takeDecodeError] at h
    | .ok i =>
      have hi : exec i s = .next t := by simpa [runEvent, runRequest, decode, hd] using h
      rcases decodeAccess_ok hd with ⟨g, hr, rfl⟩ | ⟨g, d, hr, rfl⟩
      · obtain ⟨w, hw⟩ := exec_readInstr g s
        rw [hw, Host.Outcome.next.injEq] at hi
        rw [hr, ← hi]
        exact .access (.read g w)
      · rw [hr]
        match g with
        | .cmd =>
          simp only [writeInstr, exec, execWrCmd, Host.Outcome.next.injEq] at hi
          exact .command (.inr ⟨d, rfl⟩) (hi ▸ writeCmd_result d s)
        | .err =>
          simp only [writeInstr, exec, execWrErr, Host.Outcome.next.injEq] at hi
          match hb : d.getLsbD 0 with
          | true =>
            simp only [hb, if_true] at hi
            exact .access (hi ▸ .clear d hb)
          | false =>
            simp only [hb, Bool.false_eq_true, if_false] at hi
            exact .access (hi ▸ .ignored .err d (by simp) (fun _ => hb) (by simp) (by simp))
        | .fbBase =>
          simp only [writeInstr, exec, execWrFbBase, Host.Outcome.next.injEq] at hi
          exact .access (hi ▸ .base d)
        | .config =>
          simp only [writeInstr, exec, execWrConfig, Host.Outcome.next.injEq] at hi
          exact .access (hi ▸ .config d)
        | .status =>
          simp only [writeInstr, exec, execWrStatus, ignoreWrite, Host.Outcome.next.injEq] at hi
          exact .access (hi ▸ .ignored .status d (by simp) (by simp) (by simp) (by simp))
        | .brightness =>
          simp only [writeInstr, exec, execWrBrightness, ignoreWrite, Host.Outcome.next.injEq] at hi
          exact .access (hi ▸ .ignored .brightness d (by simp) (by simp) (by simp) (by simp))
        | .duty =>
          simp only [writeInstr, exec, execWrDuty, ignoreWrite, Host.Outcome.next.injEq] at hi
          exact .access (hi ▸ .ignored .duty d (by simp) (by simp) (by simp) (by simp))
        | .rsvd =>
          simp only [writeInstr, exec, execWrRsvd, ignoreWrite, Host.Outcome.next.injEq] at hi
          exact .access (hi ▸ .ignored .rsvd d (by simp) (by simp) (by simp) (by simp))
  | .request (.port (.drainRead i)) =>
    by_cases hi : i < Config.dstN s.hrep
    · simp only [runEvent, runRequest, decode, decodePort, hi, if_true, exec, execDrainRd,
        Host.Outcome.next.injEq] at h
      exact .access (h ▸ .drainRead i hi)
    · simp [runEvent, runRequest, decode, decodePort, hi, takeDecodeError] at h
  | .request (.port .drainBusyRise) =>
    simp only [runEvent, runRequest, decode, decodePort, exec, execDrainStart, Host.Outcome.next.injEq] at h
    exact .access (h ▸ .drainStart)
  | .request (.port .drainBusyFall) =>
    simp only [runEvent, runRequest, decode, decodePort, exec, execDrainEnd, Host.Outcome.next.injEq] at h
    exact .access (h ▸ .drainEnd)
  | .request (.port .slpAck) =>
    match hr : s.slpReq with
    | true =>
      simp only [runEvent, runRequest, decode, decodePort, exec, execSlpAck, hr, if_true,
        Host.Outcome.next.injEq] at h
      exact .access (h ▸ .ack hr)
    | false => simp [runEvent, runRequest, decode, decodePort, exec, execSlpAck, hr] at h

/-- A step takes the next event and runs it on the rest. -/
theorem step_cons {s : State} {e : Event} {rest : List Event} (h : s.inputs = e :: rest) :
    step s = runEvent e (s.withInputs rest) := by
  simp [step, h]

/-- With no event to come a step leaves the state (log entry 10). -/
theorem step_nil {s : State} (h : s.inputs = []) : step s = .next s := by
  simp [step, h]

/-- What a step can do to a converter that is not IDLE: an enabled internal step of R131 or R132, or nothing. -/
theorem step_converter {s t : State} {e : Event} {rest : List Event} (hi : s.inputs = e :: rest) (he : e ≠ .reset)
    (h : step s = .next t) (hc : s.convState ≠ .idle) :
    t.hrep = s.hrep ∧ t.inputs = rest ∧
    ((e = .convTurn ∧ converterEnabled s = true ∧
      ((s.convState = .waitDrain ∧ t.convState = .converting ∧ t.convIdx = s.convIdx) ∨
        (s.convState = .converting ∧ t.convIdx = s.convIdx + 1 ∧ s.convIdx < Config.srcN ∧
          t.convState = if s.convIdx + 1 = Config.srcN then .idle else .converting))) ∨
      (¬ (e = .convTurn ∧ converterEnabled s = true) ∧ t.convState = s.convState ∧ t.convIdx = s.convIdx)) := by
  rw [step_cons hi] at h
  cases runEvent_cases h with
  | reset => exact absurd rfl he
  | hostStore a b => simp [hostStore]
  | mapMemory a b => simp [mapMemory]
  | readLost => rcases loseRead_cases (s.withInputs rest) with ⟨-, h⟩ | ⟨-, h⟩ <;> simp [h]
  | turn =>
    have hen : converterEnabled (s.withInputs rest) = converterEnabled s := rfl
    refine ⟨?_, ?_, ?_⟩
    · rcases convTurn_cases (s.withInputs rest) with h | ⟨-, -, h⟩ | ⟨-, -, -, r, g, b, p, -, h⟩ | ⟨-, -, -, -, h⟩ <;>
        simp [h, pixelDone]
    · rcases convTurn_cases (s.withInputs rest) with h | ⟨-, -, h⟩ | ⟨-, -, -, r, g, b, p, -, h⟩ | ⟨-, -, -, -, h⟩ <;>
        simp [h, pixelDone]
    · match hs : s.convState with
      | .idle => exact absurd hs hc
      | .waitDrain =>
        cases hd : s.drainBusy <;> simp [convTurn, interlockStep, converterEnabled, hs, hd]
      | .converting =>
        cases hp : pixelDue s with
        | false =>
          have hp' : pixelDue (s.withInputs rest) = false := hp
          simp [convTurn, converterEnabled, hs, hp, hp']
        | true =>
          have hp' : pixelDue (s.withInputs rest) = true := hp
          have hlt := ((pixelDue_iff s).1 hp).2.2
          rcases pixelStep_cases s.hrep (s.withInputs rest) with ⟨r, g, b, p, hm, hst⟩ | ⟨hm, hst⟩
          · have hm' : pixelRead s = some [r, g, b, p] := hm
            simp only [convTurn, converterEnabled, hs, hp, hp', hst, hm', withInputs_convState, withInputs_hrep, if_true]
            left
            simp [hlt, pixelDone]
            rfl
          · have hm' : pixelRead s = none := hm
            right
            simp [convTurn, converterEnabled, hs, hp, hp', hst, hm']
  | command hcmd ht =>
    have hne : e ≠ .convTurn := by rintro rfl; rcases hcmd with ⟨w, h⟩ | ⟨w, h⟩ <;> cases h
    rcases ht with ⟨c, rfl⟩ | rfl | ⟨b, rfl⟩
    · simp [hne]
    · rcases acceptConvert_cases (s.withInputs rest) with ⟨h1, -⟩ | ⟨-, h2⟩
      · exact absurd h1 hc
      · simp [h2, hne]
    · rcases acceptSetBacklight_cases b (s.withInputs rest) with
        ⟨-, h⟩ | ⟨-, -, -, h⟩ | ⟨-, -, -, h⟩ | ⟨-, -, -, h⟩ | ⟨-, -, -, h⟩ <;> simp [h, hne]
  | access ha =>
    cases ha with
    | ack _ => rcases acknowledge_cases (s.withInputs rest) with ⟨-, h⟩ | ⟨-, h⟩ | ⟨-, h⟩ <;> simp [h]
    | _ => simp [readOf, writeOf, clearErr]

end Sys2Proof.Machine
end

