-- ==== Sys2Proof/Laws/Run.lean ====
section
/-! SUPPORT. Running several steps, and the converter's turns one after the other. -/

namespace Sys2Proof.Machine

/-- A run of n + 1 steps is a step and a run of n. -/
theorem run_succ {n : Nat} {s t : State} (h : run (n + 1) s = .next t) :
    ∃ u, step s = .next u ∧ run n u = .next t := by
  rw [run] at h
  match hs : step s with
  | .next u => exact ⟨u, rfl, by simpa [hs] using h⟩
  | .fault f => cases f
  | .refused r => simp [hs] at h

/-- A step that answers, then the rest of the run. -/
theorem run_step {n : Nat} {s u : State} (h : step s = .next u) : run (n + 1) s = run n u := by
  rw [run, h]

/-- A converter's turn as a step. -/
theorem step_convTurn {s : State} {rest : List Event} (h : s.inputs = .convTurn :: rest) :
    step s = .next (convTurn (s.withInputs rest)) :=
  step_cons h

/-- The atomic pixel read, byte by byte of the framebuffer (R63, R67). -/
theorem memRead_pixel (s : State) (base : Word) (i : Nat) (r g b p : Byte) :
    memRead s.hostMem (pixelAddr base i) 4 = some [r, g, b, p] ↔
      pixelByte s base i 0 = some r ∧ pixelByte s base i 1 = some g ∧
      pixelByte s base i 2 = some b ∧ pixelByte s base i 3 = some p := by
  have e1 : ∀ a : Word, a + 1 = a + 1#32 := fun _ => rfl
  have e2 : ∀ a : Word, a + 1 + 1 = a + 2#32 := by intro a; bv_omega
  have e3 : ∀ a : Word, a + 2#32 + 1 = a + 3#32 := by intro a; bv_omega
  rw [memRead_four, e2, e3, e1]
  simp [pixelByte]

/-- A pixel all of whose bytes answer is read. -/
theorem memRead_of_answers {s : State} {base : Word} {i : Nat}
    (h : ∀ j < 4, (pixelByte s base i j).isSome = true) :
    ∃ r g b p, memRead s.hostMem (pixelAddr base i) 4 = some [r, g, b, p] := by
  obtain ⟨r, hr⟩ := Option.isSome_iff_exists.1 (h 0 (by omega))
  obtain ⟨g, hg⟩ := Option.isSome_iff_exists.1 (h 1 (by omega))
  obtain ⟨b, hb⟩ := Option.isSome_iff_exists.1 (h 2 (by omega))
  obtain ⟨p, hp⟩ := Option.isSome_iff_exists.1 (h 3 (by omega))
  exact ⟨r, g, b, p, (memRead_pixel ..).2 ⟨hr, hg, hb, hp⟩⟩

/-- A turn that converts a pixel. -/
theorem convTurn_of_read {s : State} {r g b p : Byte} (hd : pixelDue s = true) (hm : pixelRead s = some [r, g, b, p]) :
    convTurn s = (pixelDone s).withBb
      (bbWrite s.bb (destCells s.hrep (pixelX s.convIdx) (pixelY s.convIdx)) (pack r g b)) := by
  simp [convTurn, ((pixelDue_iff s).1 hd).1, hd, pixelStep, hm]

/-- From CONVERTING with k + 1 pixels left and host memory answering, k + 1 turns: never IDLE before the last, and then
IDLE with nothing but the back-buffer, the index and the events changed. -/
theorem run_convTurns (k : Nat) {s : State} {rest : List Event} (hc : s.convState = .converting)
    (hh : s.readHung = false) (hk : s.convIdx + (k + 1) = Config.srcN)
    (hi : s.inputs = List.replicate (k + 1) .convTurn ++ rest)
    (hm : ∀ i < Config.srcN, ∀ j < 4, (pixelByte s s.convBase i j).isSome = true) :
    (∀ m ≤ k, ∃ u, run m s = .next u ∧ u.convState = .converting) ∧
      ∃ t, run (k + 1) s = .next t ∧
        t = { s with inputs := rest, convState := .idle, convIdx := Config.srcN, bb := t.bb } := by
  induction k generalizing s with
  | zero =>
    obtain ⟨r, g, b, p, hr⟩ := memRead_of_answers (hm s.convIdx (by omega))
    have hs := step_convTurn (s := s) (rest := rest) (by simpa using hi)
    have hdue : pixelDue (s.withInputs rest) = true :=
      (pixelDue_iff _).2 ⟨hc, hh, show s.convIdx < _ by omega⟩
    rw [convTurn_of_read hdue hr] at hs
    refine ⟨fun m hm => ?_, _, by rw [run_step hs, run], ?_⟩
    · obtain rfl : m = 0 := by omega
      exact ⟨s, rfl, hc⟩
    · have hlast : s.convIdx + 1 = Config.srcN := by omega
      simp [pixelDone, State.withConv, State.withBb, State.withInputs, hlast]
  | succ k ih =>
    obtain ⟨r, g, b, p, hr⟩ := memRead_of_answers (hm s.convIdx (by omega))
    have hs := step_convTurn (s := s) (rest := List.replicate (k + 1) Event.convTurn ++ rest)
      (by rw [hi, List.replicate_succ, List.cons_append])
    have hdue : pixelDue (s.withInputs (List.replicate (k + 1) Event.convTurn ++ rest)) = true :=
      (pixelDue_iff _).2 ⟨hc, hh, show s.convIdx < _ by omega⟩
    rw [convTurn_of_read hdue hr] at hs
    have hmore : ¬ s.convIdx + 1 = Config.srcN := by omega
    generalize hu : (pixelDone (s.withInputs (List.replicate (k + 1) Event.convTurn ++ rest))).withBb _ = u at hs
    obtain ⟨hbefore, t, ht, hteq⟩ := ih (s := u) (by simp [← hu, pixelDone, hmore]) (by simp [← hu, pixelDone, hh])
      (by simp only [← hu, pixelDone, withBb_convIdx, withConv_convIdx, withInputs_convIdx]; omega)
      (by simp [← hu, pixelDone]) (by rw [← hu]; exact hm)
    refine ⟨fun m hm => ?_, t, by rw [run_step hs]; exact ht, ?_⟩
    · cases m with
      | zero => exact ⟨s, rfl, hc⟩
      | succ m =>
        obtain ⟨v, hv, hvc⟩ := hbefore m (by omega)
        exact ⟨v, by rw [run_step hs]; exact hv, hvc⟩
    · rw [hteq, ← hu]
      simp [pixelDone, State.withBb, State.withConv, State.withInputs]

/-- One more event of a schedule: a step of the state before it. -/
theorem stateAt_succ {schedule : Nat → Event} {s u : State} {n : Nat} (h : stateAt schedule s n = .next u) :
    stateAt schedule s (n + 1) = runEvent (schedule n) (u.withInputs []) := by
  rw [stateAt, h]
  exact step_cons rfl

end Sys2Proof.Machine
end

