-- ==== Sys2Proof/Tests/Slice0.lean ====
section
/-! SUPPORT. The model's own tests. Expected values come from spec/: the words of 30_encoding.md, the vectors of
95_test_vectors.md (V<n>, S<n>, P<n>), and the examples of the rules named. The witnesses at the end show that each
statement's hypotheses can be met. -/

namespace Sys2Proof.Tests

open Sys2Proof Sys2Proof.Machine

/-! ## Helpers -/

/-- The next state's view `f`, where there is one. -/
def seen {α : Type} (f : State → α) : Result → Option α
  | .next s => some (f s)
  | .fault _ => none
  | .refused _ => none

/-- The refusal, where there is one. -/
def refusal : Result → Option Refusal
  | .refused r => some r
  | .next _ => none
  | .fault _ => none

/-- Awake at duty `d` and brightness `b`. -/
def awake (d : Pixel) (b : Byte) : State := { State.reset with duty := d, brightness := b }

/-- Asleep and idle. -/
def asleep : State := { State.reset with displaySleep := true }

/-- SLEEP_WAIT with the request kind `k`. -/
def sleepWait (k : SleepKind) : State := { State.reset with blState := .sleepWait, slpReq := true, slpKind := k }

/-- WAKE_WAIT with brightness `b` pending. -/
def wakeWait (b : Byte) : State :=
  { asleep with blState := .wakeWait, slpReq := true, brightness := b, blPending := b }

/-- CONVERTING at pixel `i` of the framebuffer at 0x2000_0000, over host memory `m`. -/
def convertingAt (i : Nat) (m : Memory) : State :=
  { State.reset with convState := .converting, convIdx := i, convBase := 0x20000000#32, hostMem := m,
                     inputs := [.convTurn] }

/-- The two answers of a status of the machine. -/
def backlight (s : State) : Bool × Nat × Nat × BlState × Bool × SleepKind :=
  (s.displaySleep, s.duty.toNat, s.brightness.toNat, s.blState, s.slpReq, s.slpKind)

/-! ## WellFormed: each check refuses an ill-formed term -/

theorem test_wellFormed_drainRd_in_range : (Instr.drainRd 76799).wellFormed .two = true := by decide
theorem test_wellFormed_drainRd_out_of_range :
    (Instr.drainRd 76800).wellFormed .two = false ∧ (Instr.drainRd 38400).wellFormed .one = false := by decide
theorem test_supported_aligned_word : (Access.read 4 0x1C#5).supported = true := by decide
theorem test_unsupported_byte : (Access.read 1 0x04#5).supported = false := by decide
theorem test_unsupported_halfword : (Access.write 2 0x0C#5 0#32).supported = false := by decide
theorem test_unsupported_offset : (Access.write 4 0x05#5 0#32).supported = false := by decide
theorem test_request_drain_out_of_range : (Request.port (.drainRead 76800)).supported .two = false := by decide

/-! ## Decoding: words and rows written out from 30_encoding.md -/

/-- R93: 00000001 00000000 00000000 00000000. -/
theorem test_decode_convert : decode .two (.cmd 0b00000001000000000000000000000000#32) = .ok .convert := by decide
/-- R94: 00000010 00000000 00000000 AAAAAAAA, A = 10100101. -/
theorem test_decode_setBacklight :
    decode .two (.cmd 0b00000010000000000000000010100101#32) = .ok (.setBacklight 0xA5#8) := by decide
/-- V64, V66, V69, V70. -/
theorem test_decode_bad_words :
    decodeCmd 0x01800000#32 = .error .reservedBits ∧ decodeCmd 0x02FFFF00#32 = .error .reservedBits ∧
      decodeCmd 0x00000000#32 = .error .illegalOpcode ∧ decodeCmd 0xFFFFFFFF#32 = .error .illegalOpcode := by decide
/-- R99, the read rows. -/
theorem test_decode_reads :
    decode .two (.mmio (.read 4 0x00#5)) = .ok .rdCmd ∧ decode .two (.mmio (.read 4 0x04#5)) = .ok .rdStatus ∧
    decode .two (.mmio (.read 4 0x08#5)) = .ok .rdErr ∧ decode .two (.mmio (.read 4 0x0C#5)) = .ok .rdFbBase ∧
    decode .two (.mmio (.read 4 0x10#5)) = .ok .rdConfig ∧ decode .two (.mmio (.read 4 0x14#5)) = .ok .rdBrightness ∧
    decode .two (.mmio (.read 4 0x18#5)) = .ok .rdDuty ∧ decode .two (.mmio (.read 4 0x1C#5)) = .ok .rdRsvd := by decide
/-- R99, the write rows. -/
theorem test_decode_writes :
    decode .two (.mmio (.write 4 0x00#5 7#32)) = .ok (.wrCmd 7#32) ∧
    decode .two (.mmio (.write 4 0x04#5 7#32)) = .ok (.wrStatus 7#32) ∧
    decode .two (.mmio (.write 4 0x08#5 7#32)) = .ok (.wrErr 7#32) ∧
    decode .two (.mmio (.write 4 0x0C#5 7#32)) = .ok (.wrFbBase 7#32) ∧
    decode .two (.mmio (.write 4 0x10#5 7#32)) = .ok (.wrConfig 7#32) ∧
    decode .two (.mmio (.write 4 0x14#5 7#32)) = .ok (.wrBrightness 7#32) ∧
    decode .two (.mmio (.write 4 0x18#5 7#32)) = .ok (.wrDuty 7#32) ∧
    decode .two (.mmio (.write 4 0x1C#5 7#32)) = .ok (.wrRsvd 7#32) := by decide
/-- R99, the port rows. -/
theorem test_decode_ports :
    decode .two (.port (.drainRead 76799)) = .ok (.drainRd 76799) ∧ decode .two (.port .drainBusyRise) = .ok .drainStart ∧
    decode .two (.port .drainBusyFall) = .ok .drainEnd ∧ decode .two (.port .slpAck) = .ok .slpAck := by decide
/-- R206, R200. -/
theorem test_decode_refuses :
    decode .two (.mmio (.read 1 0x04#5)) = .error .unsupportedAccess ∧
    decode .two (.mmio (.write 4 0x02#5 0#32)) = .error .unsupportedAccess ∧
    decode .two (.port (.drainRead 76800)) = .error .drainIndexOutOfRange := by decide
/-- The opcode table's numbering, log entry 3. -/
theorem test_table_words :
    decodeTableWord 32 0x01000000 = some .convert ∧ decodeTableWord 32 0x02000000 = some (.setBacklight 0#8) ∧
    decodeTableWord 8 0x0C = some .rdFbBase ∧ decodeTableWord 8 0x2C = some (.wrFbBase 0#32) ∧
    decodeTableWord 8 0x05 = none ∧ decodeTableWord 32 0x03000000 = none ∧ decodeTableWord 0 0 = none := by decide
/-- The step after withFetchWord runs the word: 0x0200_00FF from reset is V80. -/
theorem test_fetch_word :
    seen backlight (step (State.reset.withFetchWord 32 0x020000FF)) =
      some (false, 65535, 255, .idle, false, .leaveSleep) := by decide

/-! ## Converter: packing, geometry, addresses -/

/-- V7, V8, V12, V14. -/
theorem test_pack :
    pack 0x08#8 0x04#8 0x08#8 = 0x0821#16 ∧ pack 0x12#8 0x34#8 0x56#8 = 0x11AA#16 ∧
    pack 0xAB#8 0xCD#8 0xEF#8 = 0xAE7D#16 ∧ pack 0xFF#8 0x03#8 0xFF#8 = 0xF81F#16 := by decide
/-- V22, V23, V25 for HREP = 2 and HREP = 1. -/
theorem test_destCells :
    destCells .two 159 0 = [318, 319, 638, 639] ∧ destCells .two 0 1 = [640, 641, 960, 961] ∧
    destCells .two 159 119 = [76478, 76479, 76798, 76799] ∧ destCells .one 159 0 = [159, 319] ∧
    destCells .one 159 119 = [38239, 38399] := by decide
/-- V31 to V34. -/
theorem test_pixelAddr :
    pixelAddr 0x20000000#32 161 = 0x20000284#32 ∧ pixelAddr 0x20000000#32 19199 = 0x20012BFC#32 ∧
    pixelAddr 0xFFFFFF00#32 63 = 0xFFFFFFFC#32 ∧ pixelAddr 0xFFFFFF00#32 64 = 0x00000000#32 := by decide
/-- R6, R7: the derived sizes. -/
theorem test_sizes :
    Config.srcN = 19200 ∧ Config.fbLen = 76800 ∧ Config.dstW .two = 320 ∧ Config.dstN .two = 76800 ∧
    Config.dstN .one = 38400 := by decide

/-- One pixel's bytes at pixel index i of the framebuffer at 0x2000_0000. -/
def pixelMem (i : Nat) (r g b p : Byte) : Memory :=
  memMap [] (pixelAddr 0x20000000#32 i) [r, g, b, p]

/-- P5, R132: pixel 5 with bytes 00 00 FF 00 puts 0x001F in cells 10, 11, 330, 331. -/
theorem test_pixel_step_cells :
    seen (fun s => (s.bb, s.convIdx, s.convState)) (step (convertingAt 5 (pixelMem 5 0x00#8 0x00#8 0xFF#8 0x00#8))) =
      some ([(10, 0x001F#16), (11, 0x001F#16), (330, 0x001F#16), (331, 0x001F#16)], 6, .converting) := by decide
/-- R133, S4: the last pixel step sets IDLE, and a red pixel fills the last cell. -/
theorem test_pixel_step_last :
    seen (fun s => (bbRead s 76799, s.convIdx, s.convState))
        (step (convertingAt 19199 (pixelMem 19199 0xFF#8 0x00#8 0x00#8 0x55#8))) =
      some (0xF800#16, 19200, .idle) := by decide
/-- R123, R7: with HREP = 1 the same step fills one cell a row: 5 and 165. -/
theorem test_pixel_step_hrep_one :
    seen State.bb (step { convertingAt 5 (pixelMem 5 0x00#8 0x00#8 0xFF#8 0x00#8) with hrep := .one }) =
      some [(5, 0x001F#16), (165, 0x001F#16)] := by decide
/-- R70: a pixel of which a byte does not answer leaves the unit stuck. -/
theorem test_pixel_step_silent :
    seen (fun s => (s.bb, s.convIdx, s.convState, s.readHung)) (step (convertingAt 5 (pixelMem 4 1#8 2#8 3#8 4#8))) =
      some ([], 5, .converting, true) := by decide
/-- R70, R215: a stuck unit stays stuck although its pixel answers now. -/
theorem test_pixel_step_hung :
    seen (fun s => (s.bb, s.convIdx, s.convState, s.readHung))
        (step { convertingAt 5 (pixelMem 5 1#8 2#8 3#8 4#8) with readHung := true }) =
      some ([], 5, .converting, true) := by decide
/-- R70: a bus error at memory that otherwise answers. -/
theorem test_read_lost :
    seen (fun s => (s.convIdx, s.convState, s.readHung))
        (step { convertingAt 5 (pixelMem 5 1#8 2#8 3#8 4#8) with inputs := [.readLost] }) =
      some (5, .converting, true) := by decide

/-! ## Commands -/

/-- R130's example. -/
theorem test_convert_accepts :
    seen (fun s => (s.convBase, s.convIdx, s.convState)) (exec .convert { State.reset with fbAddr := 0x08000000#30 }) =
      some (0x20000000#32, 0, .waitDrain) := by decide
/-- V62: CONVERT while CONVERTING. -/
theorem test_convert_busy :
    seen (fun s => (errWord s, s.convIdx, s.convState)) (exec .convert (convertingAt 7 [])) =
      some (3#32, 7, .converting) := by decide
/-- V81, V83: `setbl 3` turns off without sleep; `setbl 0` with corrected entry asks for ENTER_SLEEP. -/
theorem test_setBacklight_awake :
    seen backlight (exec (.setBacklight 3#8) (awake 65535#16 255#8)) =
      some (false, 0, 3, .idle, false, .leaveSleep) ∧
    seen backlight (exec (.setBacklight 0#8) { awake 65535#16 255#8 with sleepEntryKind := .enterSleep }) =
      some (false, 0, 0, .sleepWait, true, .enterSleep) := ⟨by decide, by decide⟩
/-- V86: a wake. -/
theorem test_setBacklight_asleep :
    seen backlight (exec (.setBacklight 200#8) asleep) = some (true, 0, 200, .wakeWait, true, .leaveSleep) ∧
    seen State.blPending (exec (.setBacklight 200#8) asleep) = some 200#8 := ⟨by decide, by decide⟩
/-- V89. -/
theorem test_setBacklight_busy :
    seen (fun s => (s.blState, s.blPending, errWord s)) (exec (.setBacklight 10#8) (wakeWait 200#8)) =
      some (.wakeWait, 200#8, 4#32) := by decide
/-- V63, V68: reserved bits and illegal opcodes come before busy. -/
theorem test_wrCmd_priority :
    seen errWord (exec (.wrCmd 0x01000001#32) (convertingAt 7 [])) = some 2#32 ∧
    seen errWord (exec (.wrCmd 0x05000000#32) (convertingAt 7 [])) = some 1#32 := by decide
/-- V71: the first code is kept and OVF set. -/
theorem test_wrCmd_overflow :
    seen errWord (exec (.wrCmd 0x01000001#32) { State.reset with errCode := .illegalOpcode }) = some 0x101#32 := by
  decide

/-! ## Registers -/

/-- V112. -/
theorem test_rdCmd : seen State.rdata (exec .rdCmd { State.reset with rdata := 9#32 }) = some 0#32 := by decide
/-- V102, V105. -/
theorem test_rdStatus :
    seen State.rdata (exec .rdStatus { State.reset with convState := .waitDrain, drainBusy := true }) = some 0x13#32 ∧
    seen State.rdata (exec .rdStatus (sleepWait .enterSleep)) = some 0xC4#32 := by decide
/-- V106, V107, V108. -/
theorem test_rdStatus_more :
    seen State.rdata (exec .rdStatus { asleep with slpKind := .enterSleep }) = some 0x88#32 ∧
    seen State.rdata (exec .rdStatus (wakeWait 255#8)) = some 0x4C#32 ∧
    seen State.rdata (exec .rdStatus { State.reset with errCode := .illegalOpcode }) = some 0x20#32 := by decide
/-- R193. -/
theorem test_wrStatus : seen id (exec (.wrStatus 0xFFFFFFFF#32) asleep) = some asleep := by decide
/-- V109. -/
theorem test_rdErr :
    seen State.rdata (exec .rdErr { State.reset with errCode := .illegalOpcode, errOvf := true }) = some 0x101#32 := by
  decide
/-- V72, V73. -/
theorem test_wrErr :
    seen errWord (exec (.wrErr 1#32) { State.reset with errCode := .illegalOpcode, errOvf := true }) = some 0#32 ∧
    seen errWord (exec (.wrErr 0xFFFFFFFE#32) { State.reset with errCode := .illegalOpcode }) = some 1#32 := by decide
/-- V35, V110. -/
theorem test_wrFbBase :
    seen fbBaseWord (exec (.wrFbBase 0x20000003#32) State.reset) = some 0x20000000#32 ∧
    seen fbBaseWord (exec (.wrFbBase 0xFFFFFFFF#32) State.reset) = some 0xFFFFFFFC#32 := by decide
/-- R196. -/
theorem test_rdFbBase :
    seen State.rdata (exec .rdFbBase { State.reset with fbAddr := 0x08000400#30 }) = some 0x20001000#32 := by decide
/-- V111, R199's example, V90. -/
theorem test_wrConfig :
    seen configWord (exec (.wrConfig 0xFFFFFFFF#32) State.reset) = some 1#32 ∧
    seen (fun s => (configWord s, s.slpKind)) (exec (.wrConfig 0x3#32) (sleepWait .leaveSleep)) =
      some (1#32, .leaveSleep) := by decide
/-- R198. -/
theorem test_rdConfig :
    seen State.rdata (exec .rdConfig { State.reset with sleepEntryKind := .enterSleep }) = some 1#32 := by decide
/-- V113. -/
theorem test_rdBrightness : seen State.rdata (exec .rdBrightness (wakeWait 200#8)) = some 0xC8#32 := by decide
/-- R203. -/
theorem test_wrBrightness : seen id (exec (.wrBrightness 5#32) asleep) = some asleep := by decide
/-- P2: DUTY after `setbl 128`. -/
theorem test_rdDuty : seen State.rdata (exec .rdDuty (awake 9514#16 128#8)) = some 0x252A#32 := by decide
/-- R204. -/
theorem test_wrDuty : seen id (exec (.wrDuty 5#32) asleep) = some asleep := by decide
/-- V112. -/
theorem test_rdRsvd : seen State.rdata (exec .rdRsvd { State.reset with rdata := 9#32 }) = some 0#32 := by decide
/-- R205. -/
theorem test_wrRsvd : seen id (exec (.wrRsvd 5#32) asleep) = some asleep := by decide

/-! ## Ports -/

/-- R200: the cell as it stands; an index out of range. -/
theorem test_drainRd :
    seen State.rdData (exec (.drainRd 76799) { State.reset with bb := [(76799, 0xF800#16)] }) = some 0xF800#16 ∧
    refusal (exec (.drainRd 76800) State.reset) = some .drainIndexOutOfRange := by decide
/-- R200: an unwritten cell reads as its free value, whatever it is. -/
theorem test_drainRd_unwritten (n : Nat) :
    exec (.drainRd 5) { State.reset with resetCount := n } =
      .next { State.reset with resetCount := n, rdData := Config.bbUnspecified n 5 } := rfl
/-- R201, V101. -/
theorem test_drainStart : seen statusWord (exec .drainStart State.reset) = some 0x10#32 := by decide
/-- R201. -/
theorem test_drainEnd : seen statusWord (exec .drainEnd { State.reset with drainBusy := true }) = some 0#32 := by decide
/-- V84, V87. -/
theorem test_slpAck :
    seen backlight (exec .slpAck (sleepWait .leaveSleep)) = some (true, 0, 0, .idle, false, .leaveSleep) ∧
    seen backlight (exec .slpAck (wakeWait 200#8)) = some (false, 33193, 200, .idle, false, .leaveSleep) := ⟨by decide, by decide⟩
/-- V88 and R202: a wake for duty 0; no acknowledge without a request. -/
theorem test_slpAck_corners :
    seen backlight (exec .slpAck (wakeWait 1#8)) = some (false, 0, 1, .idle, false, .leaveSleep) ∧
    refusal (exec .slpAck State.reset) = some .ackWithoutRequest := by decide

/-! ## Steps of the other agents -/

/-- R240, R24: reset in the middle of everything, with the drain still running, leaves STATUS = 0x10. -/
theorem test_reset_step :
    seen (fun s => (statusWord s, s.resetCount, s.bb, s.inputs))
        (step { wakeWait 9#8 with convState := .converting, drainBusy := true, errCode := .blBusy,
                                  bb := [(3, 1#16)], inputs := [.reset, .convTurn] }) =
      some (0x10#32, 1, [], [.convTurn]) := by decide
/-- R68, R74: a host store that wraps past the top of memory; R70: its third byte is not mapped. -/
theorem test_host_store_wraps :
    seen State.hostMem (step { State.reset with
        hostMem := [(0, 9#8), (4294967295, 9#8)], inputs := [.hostStore 0xFFFFFFFF#32 [1#8, 2#8, 3#8]] }) =
      some [(0, 2#8), (4294967295, 1#8)] := by decide
/-- R242: mapping memory, wrapping past the top. -/
theorem test_map_memory :
    seen State.hostMem (step { State.reset with inputs := [.mapMemory 0xFFFFFFFF#32 [1#8, 2#8]] }) =
      some [(0, 2#8), (4294967295, 1#8)] := by decide
/-- R74, log entry 25: mapping over a byte that answers keeps the byte. -/
theorem test_map_mapped :
    seen State.hostMem (step { State.reset with
        hostMem := [(4, 9#8)], inputs := [.mapMemory 0x00000003#32 [1#8, 2#8, 3#8]] }) =
      some [(3, 1#8), (4, 9#8), (5, 3#8)] := by decide
/-- Storing over a byte keeps one entry. -/
theorem test_memory_canonical :
    memPut (memPut (memPut [] 5 1#8) 3 2#8) 5 3#8 = [(3, 2#8), (5, 3#8)] := by decide
/-- R131: the unit holds while `drain_busy = 1`. -/
theorem test_interlock :
    seen State.convState (step { State.reset with convState := .waitDrain, drainBusy := true, inputs := [.convTurn] }) =
      some .waitDrain ∧
    seen State.convState (step { State.reset with convState := .waitDrain, inputs := [.convTurn] }) =
      some .converting := by decide
/-- Log entry 10: with no event to come nothing changes. -/
theorem test_no_event : step State.reset = .next State.reset := rfl

/-! ## The gamma table (R152, V40 to V55) -/

theorem test_gamma_values :
    gammaLut 4#8 = 1#16 ∧ gammaLut 6#8 = 2#16 ∧ gammaLut 100#8 = 4766#16 ∧ gammaLut 127#8 = 9307#16 ∧
    gammaLut 223#8 = 45021#16 ∧ gammaLut 224#8 = 45588#16 ∧ gammaLut 254#8 = 64818#16 := by decide
set_option maxRecDepth 8192 in
/-- V55: the checksum of the table, and its length. -/
theorem test_gamma_checksum : gammaRows.sum = 4430570 ∧ gammaRows.length = 256 := by decide

/-! ## Witnesses: states and operands that meet the statements' hypotheses -/

theorem witness_DecodeOfEncode : (Instr.drainRd 76799).wellFormed .two = true ∧
    (Instr.drainRd 38399).wellFormed .one = true ∧ (Instr.setBacklight 255#8).wellFormed .two = true := by
  decide
theorem witness_EncodeOfDecode : decode .two (.mmio (.write 4 0x1C#5 1#32)) = .ok (.wrRsvd 1#32) := by decide
theorem witness_UnsupportedAccess :
    ((2 : Nat) ≠ 4 ∨ (0x04#5).toNat % 4 ≠ 0) ∧ ((4 : Nat) ≠ 4 ∨ (0x1F#5).toNat % 4 ≠ 0) := by decide
theorem witness_StepRunsTheDecodedInstruction :
    ∃ (s : State) (r : Request) (rest : List Event) (i : Instr), s.inputs = .request r :: rest ∧ decode s.hrep r = .ok i :=
  ⟨{ State.reset with inputs := [.request (.cmd 0x01000000#32)] }, .cmd 0x01000000#32, [], .convert, rfl, by decide⟩
theorem witness_CommandError_word : decodeCmd 0x00FFFFFF#32 = .error .illegalOpcode ∧
    decodeCmd 0x01000001#32 = .error .reservedBits := by decide
theorem witness_CommandError_busy : (convertingAt 7 []).convState ≠ .idle ∧ (wakeWait 1#8).blState ≠ .idle := by decide
theorem witness_CommandError_kept :
    ∃ (s t : State) (e : Event) (rest : List Event), s.inputs = e :: rest ∧ step s = .next t ∧ e ≠ .reset ∧
      ¬ eventWrites .err e ∧ s.errCode ≠ .noError :=
  ⟨{ State.reset with errCode := .convBusy, inputs := [.request (.cmd 0#32)] }, _, _, _, rfl, rfl, by decide,
    (by rintro ⟨d, hd⟩; cases hd), by decide⟩
theorem witness_ErrorPriority : State.reset.errCode = .noError := rfl
theorem witness_idle_units : State.reset.convState = .idle ∧ State.reset.blState = .idle := ⟨rfl, rfl⟩
theorem witness_ConvertExample :
    ({ State.reset with fbAddr := 0x08000000#30 } : State).convState = .idle ∧
      ({ State.reset with fbAddr := 0x08000000#30 } : State).fbAddr = 0x08000000#30 := ⟨rfl, rfl⟩
theorem witness_SetBacklight_awake_on : (awake 1#16 5#8).blState = .idle ∧ (awake 1#16 5#8).displaySleep = false ∧
    (1#8 : Byte) ≠ 0#8 := by decide
theorem witness_SetBacklight_awake_off : (awake 1#16 5#8).blState = .idle ∧ (awake 1#16 5#8).displaySleep = false ∧
    (0#8 : Byte) = 0#8 := by decide
theorem witness_SetBacklight_asleep_off : asleep.blState = .idle ∧ asleep.displaySleep = true ∧ (0#8 : Byte) = 0#8 := by
  decide
theorem witness_SetBacklight_asleep_on : asleep.blState = .idle ∧ asleep.displaySleep = true ∧
    (255#8 : Byte) ≠ 0#8 := by decide
theorem witness_Acknowledge_entry : (sleepWait .enterSleep).slpReq = true ∧ (sleepWait .enterSleep).blState = .sleepWait := by
  decide
theorem witness_Acknowledge_wake : (wakeWait 1#8).slpReq = true ∧ (wakeWait 1#8).blState = .wakeWait := by decide
theorem witness_Acknowledge_inv : (sleepWait .leaveSleep).Inv ∧ (sleepWait .leaveSleep).blState = .sleepWait :=
  ⟨⟨by decide, by decide, by decide, by decide, by decide, by decide, by decide, by decide, by decide,
    ⟨by decide, by decide⟩, ⟨by decide, by decide⟩, by decide⟩, rfl⟩
theorem witness_AcknowledgeNeedsARequest : State.reset.slpReq = false := rfl
theorem witness_SleepRoundTrip :
    ∃ (s : State) (rest : List Event), s.blState = .idle ∧ s.displaySleep = false ∧ s.slpReq = false ∧
      s.inputs = .request (.cmd 0x02000000#32) :: .request (.port .slpAck) :: .request (.cmd 0x020000FF#32) ::
        .request (.port .slpAck) :: .request (.cmd 0x020000FF#32) :: rest :=
  ⟨{ State.reset with inputs := [.request (.cmd 0x02000000#32), .request (.port .slpAck),
      .request (.cmd 0x020000FF#32), .request (.port .slpAck), .request (.cmd 0x020000FF#32)] }, [],
    rfl, rfl, rfl, rfl⟩
theorem witness_ErrReads_example : State.reset.errCode = .noError ∧ decodeCmd 0x03000000#32 = .error .illegalOpcode ∧
    decodeCmd 0x01000001#32 = .error .reservedBits := by decide
theorem witness_ErrClears : (0x00000001#32).toNat % 2 = 1 ∧ (0xFFFFFFFE#32).toNat % 2 = 0 := by decide
theorem witness_Config_kinds : ({ State.reset with sleepEntryKind := .enterSleep } : State).sleepEntryKind = .enterSleep ∧
    State.reset.sleepEntryKind ≠ .enterSleep := by decide
theorem witness_DrainRead_ends : (76799 : Nat) < 38400 * State.reset.hrep.val ∧ 38400 * State.reset.hrep.val ≤ 76800 := by
  decide
theorem witness_DrainEnd_interlock :
    ∃ (s : State) (rest : List Event), s.convState = .waitDrain ∧
      s.inputs = .request (.port .drainBusyFall) :: .convTurn :: rest :=
  ⟨{ State.reset with convState := .waitDrain, drainBusy := true,
                      inputs := [.request (.port .drainBusyFall), .convTurn] }, [], rfl, rfl⟩
theorem witness_Interlock_free :
    ∃ s : State, s.inputs = [.convTurn] ∧ s.convState = .waitDrain ∧ s.drainBusy = false :=
  ⟨{ State.reset with convState := .waitDrain, inputs := [.convTurn] }, rfl, rfl, rfl⟩
theorem witness_Interlock_held :
    ∃ s : State, s.inputs = [.convTurn] ∧ s.convState = .waitDrain ∧ s.drainBusy = true :=
  ⟨{ State.reset with convState := .waitDrain, drainBusy := true, inputs := [.convTurn] }, rfl, rfl, rfl⟩
theorem witness_Interlock_converting :
    ∃ s t : State, s.inputs = [.convTurn] ∧ s.convState = .converting ∧ step s = .next t :=
  ⟨convertingAt 0 [], _, rfl, rfl, rfl⟩
/-- At the last pixel, where the step also completes the conversion. -/
theorem witness_PixelStep :
    let s := convertingAt 19199 (pixelMem 19199 1#8 2#8 3#8 4#8)
    s.inputs = [.convTurn] ∧ s.convState = .converting ∧ s.readHung = false ∧ s.convIdx < 19200 ∧
      memByte s.hostMem ((s.convBase.toNat + 4 * s.convIdx) % 2 ^ 32) = some 1#8 ∧
      memByte s.hostMem ((s.convBase.toNat + 4 * s.convIdx + 1) % 2 ^ 32) = some 2#8 ∧
      memByte s.hostMem ((s.convBase.toNat + 4 * s.convIdx + 2) % 2 ^ 32) = some 3#8 ∧
      memByte s.hostMem ((s.convBase.toNat + 4 * s.convIdx + 3) % 2 ^ 32) = some 4#8 := by decide
theorem witness_PixelsAreRead : (159 : Nat) < 160 ∧ (119 : Nat) < 120 := by decide
theorem witness_RegisterRows :
    (76799 : Nat) < 38400 * Hrep.two.val ∧ (38399 : Nat) < 38400 * Hrep.one.val ∧
      ((4 : Nat) ≠ 4 ∨ (0x1E#5).toNat % 4 ≠ 0) ∧ decodeCmd 0x020000FF#32 = .ok (.setBacklight 0xFF#8) ∧
      decodeCmd 0x00000000#32 = .error .illegalOpcode := by decide
theorem witness_SilentMemory :
    let s := convertingAt 0 (memMap [] 0x20000000#32 [1#8, 2#8, 3#8])
    s.inputs = [.convTurn] ∧ s.convState = .converting ∧ s.convIdx < 19200 ∧ (3 : Nat) < 4 ∧
      pixelByte s s.convBase s.convIdx 3 = none := by decide
theorem witness_PadByte :
    let s := convertingAt 0 (pixelMem 0 1#8 2#8 3#8 4#8)
    let m := pixelMem 0 1#8 2#8 3#8 0xFF#8
    s.inputs = [.convTurn] ∧
      (∀ j < 3, pixelByte { s with hostMem := m } s.convBase s.convIdx j = pixelByte s s.convBase s.convIdx j) ∧
      (pixelByte s s.convBase s.convIdx 3).isSome = true ∧
      (pixelByte { s with hostMem := m } s.convBase s.convIdx 3).isSome = true := by decide
theorem witness_PadByte_steps (s : State) (h : s.inputs = [.convTurn]) (m : Memory) :
    ∃ t t', step s = .next t ∧ step { s with hostMem := m } = .next t' :=
  ⟨_, _, step_convTurn h, step_convTurn (s := { s with hostMem := m }) h⟩

/-- Host memory that answers with 0 at every address below n. -/
@[irreducible] def blackImage (n : Nat) : Memory := (List.range n).map fun a => (a, 0#8)

theorem mem_blackImage {a n : Nat} (h : a < n) : (a, 0#8) ∈ blackImage n := by
  unfold blackImage
  exact List.mem_map.2 ⟨a, List.mem_range.2 h, rfl⟩

/-- It is in its canonical form. -/
theorem blackImage_wf : Memory.wf (blackImage 76800) := by
  unfold blackImage
  constructor
  · exact List.pairwise_map.2 (List.pairwise_lt_range.imp fun h => h)
  · intro p hp
    obtain ⟨a, ha, rfl⟩ := List.mem_map.1 hp
    have := List.mem_range.1 ha
    simp only [memoryLen]
    omega

/-- An address listed is looked up. -/
theorem cellLookup_isSome_of_mem {α : Type} {a : Nat} {v : α} {l : List (Nat × α)} (h : (a, v) ∈ l) :
    (cellLookup a l).isSome = true := by
  induction l with
  | nil => cases h
  | cons p rest ih =>
    obtain ⟨b, w⟩ := p
    by_cases hb : a = b
    · simp [cellLookup, hb]
    · rcases List.mem_cons.1 h with h | h
      · exact absurd (congrArg Prod.fst h) hb
      · simpa [cellLookup, hb] using ih h

/-- Turns enough for one conversion. -/
@[irreducible] def turns : List Event := List.replicate (1 + Config.srcN) .convTurn

/-- Waiting, with the framebuffer at 0 all black. -/
def waiting : State := { State.reset with convState := .waitDrain, hostMem := blackImage 76800, inputs := turns }

theorem waiting_answers : ∀ i < Config.srcN, ∀ j < 4, (pixelByte waiting waiting.convBase i j).isSome = true := by
  intro i hi j hj
  have hi' : i < 19200 := hi
  have haddr : (pixelAddr waiting.convBase i + BitVec.ofNat 32 j).toNat = 4 * i + j := by
    simp only [pixelAddr, waiting, State.reset, Config.srcStride, BitVec.toNat_add, BitVec.toNat_ofNat]
    omega
  have hsome := cellLookup_isSome_of_mem (mem_blackImage (show 4 * i + j < 76800 by omega))
  simp only [pixelByte, haddr, memByte]
  rw [show waiting.hostMem = blackImage 76800 from rfl]
  split
  · rfl
  · rename_i hnone
    rw [hnone] at hsome
    cases hsome

theorem waiting_inputs : waiting.inputs = List.replicate (1 + Config.srcN) .convTurn ++ [] := by
  rw [List.append_nil, show waiting.inputs = turns from rfl, turns]

theorem witness_ConversionTakes :
    waiting.convState = .waitDrain ∧ waiting.convIdx = 0 ∧ waiting.readHung = false ∧ waiting.drainBusy = false ∧
      waiting.inputs = List.replicate (1 + Config.srcN) .convTurn ++ [] ∧
      ∀ i < Config.srcN, ∀ j < 4, (pixelByte waiting waiting.convBase i j).isSome = true :=
  ⟨rfl, rfl, rfl, rfl, waiting_inputs, waiting_answers⟩

/-- The run of `waiting`: not IDLE before its last turn, and IDLE then. -/
theorem waiting_run :
    (∀ k < 1 + Config.srcN, ∀ u, run k waiting = .next u → u.convState ≠ .idle) ∧
      ∃ t, run (1 + Config.srcN) waiting = .next t ∧ t.convState = .idle := by
  have hin0 : waiting.inputs = Event.convTurn :: (List.replicate (19199 + 1) Event.convTurn ++ []) := by
    rw [waiting_inputs, show 1 + Config.srcN = (19199 + 1) + 1 by decide, List.replicate_succ, List.cons_append]
  have hstep := step_convTurn hin0
  generalize hs1 : List.replicate (19199 + 1) Event.convTurn ++ [] = es at hstep
  have hturn : convTurn (waiting.withInputs es) = { waiting with convState := .converting, inputs := es } := rfl
  rw [hturn] at hstep
  obtain ⟨hbefore, t, ht, hteq⟩ := run_convTurns 19199 (rest := []) (s := { waiting with convState := .converting, inputs := es })
    rfl rfl rfl hs1.symm waiting_answers
  constructor
  · intro k hk u hu
    cases k with
    | zero => simp only [run, Host.Outcome.next.injEq] at hu; subst hu; simp [waiting]
    | succ k =>
      rw [run_step hstep] at hu
      have hk' : k ≤ 19199 := by have : Config.srcN = 19200 := rfl; omega
      obtain ⟨v, hv, hvc⟩ := hbefore k hk'
      rw [hv, Host.Outcome.next.injEq] at hu
      subst hu
      simp [hvc]
  · refine ⟨t, ?_, by rw [hteq]⟩
    rw [Nat.add_comm, run_step hstep]
    exact ht

theorem witness_ConversionResult :
    ∃ (s t : State) (n : Nat), s.convState = .waitDrain ∧ s.convIdx = 0 ∧
      (∀ e ∈ s.inputs.take n, e ≠ .reset ∧ avoidsFramebuffer s.convBase e) ∧
      (∀ k < n, ∀ u, run k s = .next u → u.convState ≠ .idle) ∧ run n s = .next t ∧ t.convState = .idle := by
  obtain ⟨hbefore, t, ht, hidle⟩ := waiting_run
  refine ⟨waiting, t, 1 + Config.srcN, rfl, rfl, fun e he => ?_, hbefore, ht, hidle⟩
  have hmem := List.mem_of_mem_take he
  rw [waiting_inputs, List.append_nil] at hmem
  obtain rfl := List.eq_of_mem_replicate hmem
  exact ⟨by simp, fun _ _ h => by rcases h with h | h <;> cases h⟩

theorem witness_ConversionForgets :
    ∃ (s s' t t' : State) (n n' : Nat),
      s.convState = .waitDrain ∧ s'.convState = .waitDrain ∧ s.convIdx = 0 ∧ s'.convIdx = 0 ∧
      s'.convBase = s.convBase ∧ s'.hrep = s.hrep ∧
      (∀ i < Config.srcN, ∀ j < 3, pixelByte s' s.convBase i j = pixelByte s s.convBase i j) ∧
      (∀ e ∈ s.inputs.take n, e ≠ .reset ∧ avoidsFramebuffer s.convBase e) ∧
      (∀ e ∈ s'.inputs.take n', e ≠ .reset ∧ avoidsFramebuffer s.convBase e) ∧
      (∀ k < n, ∀ u, run k s = .next u → u.convState ≠ .idle) ∧
      (∀ k < n', ∀ u, run k s' = .next u → u.convState ≠ .idle) ∧
      run n s = .next t ∧ run n' s' = .next t' ∧ t.convState = .idle ∧ t'.convState = .idle := by
  obtain ⟨s, t, n, hc, hi, he, hb, ht, hidle⟩ := witness_ConversionResult
  exact ⟨s, s, t, t, n, n, hc, hc, hi, hi, rfl, rfl, fun _ _ _ _ => rfl, he, he, hb, hb, ht, ht, hidle, hidle⟩

/-- A step from IDLE to IDLE. -/
theorem witness_ConversionIndex :
    ∃ (s t : State) (rest : List Event), s.inputs = .convTurn :: rest ∧ Event.convTurn ≠ .reset ∧
      s.convState = .idle ∧ step s = .next t ∧ t.convState = .idle :=
  ⟨{ State.reset with inputs := [.convTurn] }, _, [], rfl, by decide, rfl, rfl, rfl⟩

/-- A read lost at the last pixel. -/
theorem witness_ReadLost :
    ∃ (s : State) (rest : List Event), s.inputs = .readLost :: rest ∧ s.convState = .converting ∧ s.convIdx < 19200 :=
  ⟨{ convertingAt 19199 [] with inputs := [.readLost] }, [], rfl, rfl, by decide⟩

/-- A stuck unit, its pixel mapped too late. -/
theorem witness_SilentMemory_run :
    ∃ (s t : State) (n : Nat), s.convState = .converting ∧ s.readHung = true ∧ (∀ e ∈ s.inputs.take n, e ≠ .reset) ∧
      run n s = .next t :=
  ⟨{ convertingAt 5 [] with readHung := true, inputs := [.mapMemory 0x20000014#32 [1#8, 2#8, 3#8, 4#8], .convTurn] },
    _, 2, rfl, rfl, by decide, rfl⟩

theorem witness_Hangs :
    ∃ (s t : State) (rest : List Event), s.inputs = .convTurn :: rest ∧ Event.convTurn ≠ .reset ∧ step s = .next t ∧
      s.convState = .waitDrain ∧ s.drainBusy = true ∧ s.blState ≠ .idle ∧
      Event.convTurn ≠ .request (.port .slpAck) :=
  ⟨{ wakeWait 9#8 with convState := .waitDrain, drainBusy := true, inputs := [.convTurn] }, _, [], rfl, by decide, rfl,
    rfl, rfl, by decide, by decide⟩

/-- R133's count, where a poll of STATUS stands between the conversion's first turns: not yet IDLE. -/
theorem witness_ConversionSteps :
    ∃ (s t : State) (n : Nat), s.convState = .waitDrain ∧ s.convIdx = 0 ∧ (∀ e ∈ s.inputs.take n, e ≠ .reset) ∧
      (∀ k < n, ∀ u, run k s = .next u → u.convState ≠ .idle) ∧ run n s = .next t ∧ converterSteps n s = 2 := by
  let s : State :=
    { State.reset with convState := .waitDrain, convBase := 0x20000000#32, hostMem := pixelMem 0 1#8 2#8 3#8 4#8,
                       inputs := [.convTurn, .request (readOf .status), .convTurn] }
  refine ⟨s, _, 3, rfl, rfl, by decide, fun k hk u hu => ?_, rfl, by decide⟩
  match k, hk with
  | 0, _ => cases hu; decide
  | 1, _ => cases hu; decide
  | 2, _ => cases hu; decide

theorem witness_DestinationCells : 76799 ∈ destCells .two 159 119 ∧ 38399 ∈ destCells .one 159 119 ∧
    76799 < Config.dstN .two ∧ 38399 < Config.dstN .one := by decide
/-- The last cell, for ConversionResultOfEveryInterleaving. -/
theorem witness_ConversionResult_cell :
    76799 < 38400 * waiting.hrep.val ∧ 159 = 76799 % (160 * waiting.hrep.val) / waiting.hrep.val ∧
      119 = 76799 / (160 * waiting.hrep.val) / 2 := by decide
theorem witness_Gamma_neighbours : (6#8).toNat = (5#8).toNat + 1 ∧ (5#8).toNat = (4#8).toNat + 1 := by decide
theorem witness_Gamma_low : State.reset.blState = .idle ∧ State.reset.displaySleep = false ∧ 1 ≤ (3#8).toNat ∧
    (3#8).toNat ≤ 3 := by decide
theorem witness_Invariants : ∃ s t : State, s.Inv ∧ step s = .next t :=
  ⟨{ sleepWait .leaveSleep with inputs := [.request (.port .slpAck)] }, _,
    ⟨by decide, by decide, by decide, by decide, by decide, by decide, by decide, by decide, by decide,
      ⟨by decide, by decide⟩, ⟨by decide, by decide⟩, by decide⟩, rfl⟩
theorem witness_ResetMeets : Memory.wf [(0, 1#8), (4294967295, 2#8)] := by decide
/-- For both statements about a reset event. -/
theorem witness_Reset : ({ wakeWait 9#8 with inputs := [.reset] } : State).inputs = [.reset] := rfl
theorem witness_HostMemory :
    ∃ (s t : State) (m : Memory) (e : Event) (rest : List Event), s.inputs = e :: rest ∧
      (∀ addr bytes, e ≠ .hostStore addr bytes ∧ e ≠ .mapMemory addr bytes) ∧
      (∀ i < 19200, ∀ j < 4, pixelByte { s with hostMem := m } s.convBase i j = pixelByte s s.convBase i j) ∧
      step s = .next t := by
  refine ⟨convertingAt 0 [], _, [(0, 1#8)], .convTurn, [], rfl,
    fun _ _ => ⟨fun h => (by cases h), fun h => (by cases h)⟩, fun i hi j hj => ?_, rfl⟩
  have haddr : (pixelAddr (convertingAt 0 []).convBase i + BitVec.ofNat 32 j).toNat = 0x20000000 + 4 * i + j := by
    simp only [pixelAddr, convertingAt, Config.srcStride, BitVec.toNat_add, BitVec.toNat_ofNat]
    omega
  simp only [pixelByte, haddr, memByte]
  simp [cellLookup, convertingAt]
theorem witness_HostStore :
    ∃ (s : State) (rest : List Event) (addr : Word) (bytes : List Byte),
      s.inputs = .hostStore addr bytes :: rest ∧ bytes.length ≤ 2 ^ 32 ∧ bytes[1]? = some 2#8 ∧
        ∀ k < bytes.length, addr + BitVec.ofNat 32 k ≠ 5#32 :=
  ⟨{ State.reset with inputs := [.hostStore 0xFFFFFFFF#32 [1#8, 2#8]] }, [], 0xFFFFFFFF#32, [1#8, 2#8], rfl,
    by decide, rfl, by decide⟩
/-- Bytes that wrap past the top of memory, the second at an address that answers already. -/
theorem witness_MappedMemory :
    ∃ (s : State) (rest : List Event) (addr : Word) (bytes : List Byte),
      s.inputs = .mapMemory addr bytes :: rest ∧ bytes.length ≤ 2 ^ 32 ∧ bytes[1]? = some 2#8 ∧
        memByte s.hostMem (addr + BitVec.ofNat 32 1).toNat = some 9#8 ∧
        ∀ k < bytes.length, addr + BitVec.ofNat 32 k ≠ 5#32 :=
  ⟨{ State.reset with hostMem := [(0, 9#8)], inputs := [.mapMemory 0xFFFFFFFF#32 [1#8, 2#8]] }, [], 0xFFFFFFFF#32,
    [1#8, 2#8], rfl, by decide, rfl, by decide, by decide⟩
theorem witness_Writers :
    ∃ (s t : State) (rest : List Event), s.inputs = .convTurn :: rest ∧ Event.convTurn ≠ .reset ∧ step s = .next t ∧
      ¬ isCommand .convTurn ∧ ∀ g, ¬ eventWrites g .convTurn :=
  ⟨convertingAt 0 [], _, [], rfl, by decide, rfl, (by rintro (⟨w, h⟩ | ⟨w, h⟩) <;> cases h),
    (by rintro g ⟨d, h⟩; cases h)⟩
theorem witness_OnlyCommands :
    ∃ (s t : State) (n : Nat), (∀ e ∈ s.inputs.take n, ¬ isCommand e) ∧ run n s = .next t ∧ s.convState = .idle ∧
      s.blState = .idle :=
  ⟨{ State.reset with inputs := [.convTurn] }, _, 1,
    (by intro e he; simp at he; subst he; rintro (⟨w, h⟩ | ⟨w, h⟩) <;> cases h), rfl, rfl, rfl⟩
theorem witness_Units_effects :
    (∃ t, exec (.setBacklight 9#8) State.reset = .next t) ∧ (∃ t, exec .slpAck (wakeWait 9#8) = .next t) ∧
      (∃ t, exec .convert State.reset = .next t) ∧ ∃ t, convTurn (convertingAt 0 []) = t :=
  ⟨⟨_, rfl⟩, ⟨_, rfl⟩, ⟨_, rfl⟩, ⟨_, rfl⟩⟩
theorem witness_DrainHolds :
    ∃ (s t : State) (n : Nat), s.drainBusy = true ∧ s.convState ≠ .converting ∧
      (∀ e ∈ s.inputs.take n, e ≠ .reset ∧ e ≠ .request (.port .drainBusyFall)) ∧ run n s = .next t ∧
      s.convState = .waitDrain :=
  ⟨{ State.reset with convState := .waitDrain, drainBusy := true, inputs := [.convTurn] }, _, 1, rfl, by decide,
    by decide, rfl, rfl⟩
theorem witness_DrainContract :
    ∃ (s t : State) (rest : List Event), s.inputs = .request (.port .drainBusyRise) :: rest ∧
      drainContract s (.request (.port .drainBusyRise)) ∧ (s.drainBusy = true → s.convState ≠ .converting) ∧
      step s = .next t :=
  ⟨{ State.reset with inputs := [.request (.port .drainBusyRise)] }, _, [], rfl, fun _ => rfl, by decide, rfl⟩
/-- The second clause's premise: a converter's turn during a drain. -/
theorem witness_DrainContract_busy :
    ∃ (s t : State) (rest : List Event), s.inputs = .convTurn :: rest ∧ drainContract s .convTurn ∧
      (s.drainBusy = true → s.convState ≠ .converting) ∧ step s = .next t ∧ s.drainBusy = true ∧
      Event.convTurn ≠ .reset :=
  ⟨{ State.reset with convState := .waitDrain, drainBusy := true, inputs := [.convTurn] }, _, [], rfl,
    fun h => (by cases h), fun _ => (by decide), rfl, rfl, by decide⟩
theorem witness_Refused :
    ∃ (s : State) (e : Event) (rest : List Event), s.inputs = e :: rest ∧ step s = .refused .ackWithoutRequest :=
  ⟨{ State.reset with inputs := [.request (.port .slpAck)] }, _, [], rfl, rfl⟩

/-! ## Witnesses of the progress statements: a schedule without an end -/

/-- All turns leave a state that is next at every point, CONVERTING or not, with the drain level as it was. -/
theorem turns_go_on (s : State) (n : Nat) :
    ∃ u, stateAt (fun _ => Event.convTurn) s n = .next u ∧ u.drainBusy = s.drainBusy ∧ u.slpReq = s.slpReq := by
  induction n with
  | zero => exact ⟨s, rfl, rfl, rfl⟩
  | succ n ih =>
    obtain ⟨u, hu, hd, hr⟩ := ih
    refine ⟨_, (stateAt_succ hu).trans rfl, ?_⟩
    rcases convTurn_cases (u.withInputs []) with h | ⟨-, -, h⟩ | ⟨-, -, -, r, g, b, p, -, h⟩ | ⟨-, -, -, -, h⟩ <;>
      simp [h, hd, hr, pixelDone]

theorem waiting_inv : waiting.Inv :=
  ⟨by decide, by decide, by decide, by decide, by decide, by decide, by decide, by decide, by decide,
    ⟨blackImage_wf.1, blackImage_wf.2⟩, ⟨by decide, by decide⟩, by decide⟩

theorem witness_FairConversions :
    ∃ (schedule : Nat → Event) (s : State), s.Inv ∧ s.readHung = false ∧
      (∀ i < 19200, ∀ j < 4, (pixelByte s s.convBase i j).isSome = true) ∧ (∀ n, schedule n ≠ .readLost) ∧
      (∀ n, ∃ u, stateAt schedule s n = .next u ∧ drainContract u (schedule n)) ∧
      ConverterFair schedule s ∧ DrainFair schedule s := by
  refine ⟨fun _ => .convTurn, waiting, waiting_inv, rfl, waiting_answers, fun _ => (by simp), fun n => ?_,
    fun n _ _ _ => ⟨n, Nat.le_refl n, .inl rfl⟩, fun n u hu hd => ?_⟩
  · obtain ⟨u, hu, -⟩ := turns_go_on waiting n
    exact ⟨u, hu, fun h => by cases h⟩
  · obtain ⟨v, hv, hvd, -⟩ := turns_go_on waiting n
    obtain rfl : v = u := by rw [hv] at hu; cases hu; rfl
    rw [hvd] at hd
    cases hd

/-- An acknowledge, then turns. -/
def ackThenTurns : Nat → Event
  | 0 => .request (.port .slpAck)
  | _ + 1 => .convTurn

theorem ackThenTurns_go_on (n : Nat) :
    ∃ u, stateAt ackThenTurns (sleepWait .enterSleep) (n + 1) = .next u ∧ u.slpReq = false := by
  induction n with
  | zero => exact ⟨_, rfl, rfl⟩
  | succ n ih =>
    obtain ⟨u, hu, hr⟩ := ih
    refine ⟨_, (stateAt_succ hu).trans rfl, ?_⟩
    rcases convTurn_cases (u.withInputs []) with h | ⟨-, -, h⟩ | ⟨-, -, -, r, g, b, p, -, h⟩ | ⟨-, -, -, -, h⟩ <;>
      simp [h, hr, pixelDone]

theorem witness_FairSleepTransitions :
    ∃ (schedule : Nat → Event) (s : State), s.Inv ∧ (∀ n, ∃ u, stateAt schedule s n = .next u) ∧
      SequencerFair schedule s ∧ s.slpReq = true := by
  refine ⟨ackThenTurns, sleepWait .enterSleep,
    ⟨by decide, by decide, by decide, by decide, by decide, by decide, by decide, by decide, by decide,
      ⟨by decide, by decide⟩, ⟨by decide, by decide⟩, by decide⟩, fun n => ?_, fun n u hu hr => ?_, rfl⟩
  · cases n with
    | zero => exact ⟨_, rfl⟩
    | succ n => exact (ackThenTurns_go_on n).imp fun u h => h.1
  · cases n with
    | zero => exact ⟨0, Nat.le_refl 0, .inl rfl⟩
    | succ n =>
      obtain ⟨v, hv, hvr⟩ := ackThenTurns_go_on n
      obtain rfl : v = u := by rw [hv] at hu; cases hu; rfl
      rw [hvr] at hr
      cases hr

end Sys2Proof.Tests
end

section
/-! SUPPORT. The invariants unit by unit (10_state.md R44 to R46), and every event keeps them. -/

namespace Sys2Proof.Machine

/-- What R44 and R45 say of the backlight unit, state by state of `bl_state`. -/
def backlightInv (s : State) : Prop :=
  match s.blState with
  | .idle => s.slpReq = false ∧ s.duty = gammaLut s.brightness ∧ (s.displaySleep = true → s.duty = 0#16)
  | .sleepWait => s.slpReq = true ∧ s.displaySleep = false ∧ s.duty = 0#16 ∧ s.brightness = 0#8
  | .wakeWait => s.slpReq = true ∧ s.displaySleep = true ∧ s.duty = 0#16 ∧ s.slpKind = .leaveSleep ∧
      s.blPending = s.brightness ∧ s.blPending ≠ 0#8

/-- What R46 and R70 say of the converter unit, state by state of `conv_state`. -/
def converterInv (s : State) : Prop :=
  match s.convState with
  | .idle => (s.convIdx = 0 ∨ s.convIdx = Config.srcN) ∧ s.readHung = false
  | .waitDrain => s.convIdx = 0 ∧ s.readHung = false
  | .converting => s.convIdx < Config.srcN

/-- What the converter addresses with and what it reads and writes: `conv_base` aligned (R33), the canonical forms. -/
def storageInv (s : State) : Prop :=
  s.convBase.toNat % 4 = 0 ∧ Memory.wf s.hostMem ∧ backBufferWf s.hrep s.bb

theorem backlightInv_of_inv {s : State} (h : s.Inv) : backlightInv s := by
  have hreq := h.idle_iff_no_request
  unfold backlightInv
  split
  · next hbl => exact ⟨hreq.1 hbl, h.idle_duty hbl, h.sleep_duty⟩
  · next hbl => exact ⟨by simpa [hbl] using hreq, h.sleep_wait hbl⟩
  · next hbl => exact ⟨by simpa [hbl] using hreq, h.wake_wait hbl⟩

theorem converterInv_of_inv {s : State} (h : s.Inv) : converterInv s := by
  have hhung := h.hung_converting
  unfold converterInv
  split
  · next hc => exact ⟨h.conv_idle hc, by simpa [hc] using hhung⟩
  · next hc => exact ⟨h.conv_wait hc, by simpa [hc] using hhung⟩
  · next hc => exact h.converting hc

/-- The invariants are those of the two units and of what is stored. -/
theorem inv_iff (s : State) : s.Inv ↔ backlightInv s ∧ converterInv s ∧ storageInv s := by
  constructor
  · intro h
    exact ⟨backlightInv_of_inv h, converterInv_of_inv h, h.base_aligned, h.mem_wf, h.bb_wf⟩
  · rintro ⟨hbl, hconv, hbase, hmem, hbb⟩
    constructor
    case base_aligned => exact hbase
    case mem_wf => exact hmem
    case bb_wf => exact hbb
    case conv_idle | conv_wait | converting | hung_converting =>
      unfold converterInv at hconv
      split at hconv <;> grind
    all_goals
      unfold backlightInv at hbl
      split at hbl <;> grind

/-! ## The backlight unit -/

theorem gammaLut_zero : gammaLut 0#8 = 0#16 := by decide

theorem acceptSetBacklight_keeps_backlightInv (b : Byte) {s : State} (h : backlightInv s) :
    backlightInv (acceptSetBacklight b s) := by
  rcases acceptSetBacklight_cases b s with
    ⟨-, ht⟩ | ⟨hi, hd, hb, ht⟩ | ⟨hi, hd, hb, ht⟩ | ⟨hi, hd, hb, ht⟩ | ⟨hi, hd, hb, ht⟩ <;> rw [ht]
  · simpa [backlightInv] using h
  all_goals
    simp only [backlightInv, hi] at h
    obtain ⟨hreq, -, hduty⟩ := h
  · simp [backlightInv, hi, hd, hreq]
  · simp [backlightInv, hd, hb]
  · simp [backlightInv, hi, hreq, hb, gammaLut_zero]
  · simp [backlightInv, hd, hb, hduty hd]

theorem acknowledge_keeps_backlightInv {s : State} (h : backlightInv s) : backlightInv (acknowledge s) := by
  rcases acknowledge_cases s with ⟨-, ht⟩ | ⟨hw, ht⟩ | ⟨hw, ht⟩ <;> rw [ht]
  · exact h
  · simp only [backlightInv, hw] at h
    obtain ⟨-, -, hduty, hbright⟩ := h
    simp [backlightInv, hduty, hbright, gammaLut_zero]
  · simp only [backlightInv, hw] at h
    obtain ⟨-, -, -, -, hpending, -⟩ := h
    simp [backlightInv, hpending]

/-! ## The converter unit -/

theorem fbBaseWord_aligned (s : State) : (fbBaseWord s).toNat % 4 = 0 := by
  simp only [fbBaseWord, BitVec.toNat_append, Nat.shiftLeft_eq]
  simp

/-- The cells of a source pixel in range are cells of the back-buffer (R123, R124). -/
theorem destCells_lt_dstN {h : Hrep} {i c : Nat} (hi : i < Config.srcN)
    (hc : c ∈ destCells h (pixelX i) (pixelY i)) : c < Config.dstN h := by
  obtain ⟨dy, hdy, dx, hdx, rfl⟩ := (mem_destCells ..).1 hc
  cases h <;>
    simp only [Config.srcN, Config.srcW, Config.srcH, Config.vrep, Config.dstN, Config.dstW, Config.dstH, Hrep.val,
      pixelX, pixelY] at * <;> omega

/-- The pixel step of an index in range (R132, R133). -/
theorem pixelDone_withBb_keeps_inv {s : State} (h : s.Inv) (hh : s.readHung = false)
    (hi : s.convIdx < Config.srcN) (p : Pixel) :
    ((pixelDone s).withBb (bbWrite s.bb (destCells s.hrep (pixelX s.convIdx) (pixelY s.convIdx)) p)).Inv := by
  obtain ⟨hbl, -, hbase, hmem, hbb⟩ := (inv_iff s).1 h
  refine (inv_iff _).2 ⟨hbl, ?_, hbase, hmem, bbWrite_wf p hbb fun c => destCells_lt_dstN hi⟩
  by_cases hlast : s.convIdx + 1 = Config.srcN
  · simp [converterInv, pixelDone, hlast, hh]
  · simp only [converterInv, pixelDone, hlast, if_false, withBb_convState, withBb_convIdx, withConv_convState,
      withConv_convIdx]
    omega

/-- The unit is stuck where a read was due (R70). -/
theorem withReadHung_keeps_inv {s : State} (h : s.Inv) (hc : s.convState = .converting) :
    (s.withReadHung true).Inv := by
  obtain ⟨hbl, hconv, hst⟩ := (inv_iff s).1 h
  refine (inv_iff _).2 ⟨hbl, ?_, hst⟩
  simpa [converterInv, hc] using hconv

theorem convTurn_keeps_inv {s : State} (h : s.Inv) : (convTurn s).Inv := by
  rcases convTurn_cases s with ht | ⟨hw, -, ht⟩ | ⟨-, hh, hi, r, g, b, p, -, ht⟩ | ⟨hc, -, -, -, ht⟩ <;> rw [ht]
  · exact h
  · obtain ⟨hbl, -, hst⟩ := (inv_iff s).1 h
    have hstart : s.convIdx < Config.srcN := by rw [h.conv_wait hw]; decide
    exact (inv_iff _).2 ⟨hbl, hstart, hst⟩
  · exact pixelDone_withBb_keeps_inv h hh hi _
  · exact withReadHung_keeps_inv h hc

theorem loseRead_keeps_inv {s : State} (h : s.Inv) : (loseRead s).Inv := by
  rcases loseRead_cases s with ⟨hdue, ht⟩ | ⟨-, ht⟩ <;> rw [ht]
  · exact withReadHung_keeps_inv h ((pixelDue_iff s).1 hdue).1
  · exact h

/-! ## Commands, register accesses and port events -/

theorem raiseCmdError_keeps_inv (code : ErrCode) {s : State} (h : s.Inv) : (raiseCmdError code s).Inv := by
  rcases raiseCmdError_cases code s with ⟨-, ht⟩ | ⟨-, ht⟩ <;> rw [ht] <;> exact (inv_iff _).2 ((inv_iff s).1 h)

theorem acceptConvert_keeps_inv {s : State} (h : s.Inv) : (acceptConvert s).Inv := by
  rcases acceptConvert_cases s with ⟨hi, ht⟩ | ⟨-, ht⟩ <;> rw [ht]
  · obtain ⟨hbl, hconv, -, hmem, hbb⟩ := (inv_iff s).1 h
    simp only [converterInv, hi] at hconv
    exact (inv_iff _).2 ⟨hbl, ⟨rfl, hconv.2⟩, fbBaseWord_aligned s, hmem, hbb⟩
  · exact raiseCmdError_keeps_inv _ h

theorem acceptSetBacklight_keeps_inv (b : Byte) {s : State} (h : s.Inv) : (acceptSetBacklight b s).Inv := by
  obtain ⟨hbl, hconv, hst⟩ := (inv_iff s).1 h
  have hbl' := acceptSetBacklight_keeps_backlightInv b hbl
  rcases acceptSetBacklight_cases b s with
    ⟨-, ht⟩ | ⟨-, -, -, ht⟩ | ⟨-, -, -, ht⟩ | ⟨-, -, -, ht⟩ | ⟨-, -, -, ht⟩ <;> rw [ht] at hbl' ⊢
  · exact raiseCmdError_keeps_inv _ h
  all_goals exact (inv_iff _).2 ⟨hbl', hconv, hst⟩

theorem CommandResult.keeps_inv {s t : State} (ht : CommandResult s t) (h : s.Inv) : t.Inv := by
  rcases ht with ⟨code, rfl⟩ | rfl | ⟨b, rfl⟩
  · exact raiseCmdError_keeps_inv code h
  · exact acceptConvert_keeps_inv h
  · exact acceptSetBacklight_keeps_inv b h

theorem acknowledge_keeps_inv {s : State} (h : s.Inv) : (acknowledge s).Inv := by
  obtain ⟨hbl, hconv, hst⟩ := (inv_iff s).1 h
  have hbl' := acknowledge_keeps_backlightInv hbl
  rcases acknowledge_cases s with ⟨-, ht⟩ | ⟨-, ht⟩ | ⟨-, ht⟩ <;> rw [ht] at hbl' ⊢ <;>
    exact (inv_iff _).2 ⟨hbl', hconv, hst⟩

/-- No access but an acknowledge touches what the invariants speak of. -/
theorem AccessResult.keeps_inv {s t : State} {e : Event} (ht : AccessResult s e t) (h : s.Inv) : t.Inv := by
  cases ht with
  | ack _ => exact acknowledge_keeps_inv h
  | ignored => exact h
  | read | clear | base | config | drainRead | drainStart | drainEnd => exact (inv_iff _).2 ((inv_iff s).1 h)

/-! ## Events and steps -/

/-- The values of R48 meet the invariants; of what a reset leaves, they speak of host memory alone. -/
theorem resetMachine_inv {s : State} (hmem : Memory.wf s.hostMem) : (resetMachine s).Inv := by
  refine (inv_iff _).2 ⟨⟨rfl, gammaLut_zero.symm, fun _ => rfl⟩, ⟨.inl rfl, rfl⟩, rfl, hmem, .nil, ?_⟩
  intro _ hp
  cases hp

theorem withHostMem_keeps_inv {s : State} (h : s.Inv) {m : Memory} (hm : Memory.wf m) : (s.withHostMem m).Inv := by
  obtain ⟨hbl, hconv, hbase, -, hbb⟩ := (inv_iff s).1 h
  exact (inv_iff _).2 ⟨hbl, hconv, hbase, hm, hbb⟩

theorem EventResult.keeps_inv {s t : State} {e : Event} (ht : EventResult s e t) (h : s.Inv) : t.Inv := by
  cases ht with
  | reset => exact resetMachine_inv h.mem_wf
  | hostStore addr bytes => exact withHostMem_keeps_inv h (memStore_wf bytes h.mem_wf addr)
  | mapMemory addr bytes => exact withHostMem_keeps_inv h (memMap_wf bytes h.mem_wf addr)
  | readLost => exact loseRead_keeps_inv h
  | turn => exact convTurn_keeps_inv h
  | command _ ht => exact ht.keeps_inv h
  | access ht => exact ht.keeps_inv h

/-- The invariants do not speak of the events to come. -/
theorem withInputs_keeps_inv {s : State} (h : s.Inv) (es : List Event) : (s.withInputs es).Inv :=
  (inv_iff _).2 ((inv_iff s).1 h)

theorem step_keeps_inv {s t : State} (h : s.Inv) (hst : step s = .next t) : t.Inv := by
  match hin : s.inputs with
  | [] =>
    rw [step_nil hin, Host.Outcome.next.injEq] at hst
    exact hst ▸ h
  | e :: rest =>
    rw [step_cons hin] at hst
    exact (runEvent_cases hst).keeps_inv (withInputs_keeps_inv h rest)

/-- Settles O40: a case split over what one event can do. -/
theorem everyStepKeepsTheInvariants : Obligations.EveryStepKeepsTheInvariants :=
  fun _ _ => step_keeps_inv

end Sys2Proof.Machine
end

section
/-! SUPPORT. The words and the ignored writes of the host's registers (10_state.md R24, R30). -/

namespace Sys2Proof.Machine

/-- The fields of STATUS from bit 0 up (R24). -/
def statusBits (s : State) : List Bool :=
  [convBusyFlag s, convWaitFlag s, blBusyFlag s, s.displaySleep, s.drainBusy, errFlag s, s.slpReq,
    decide (s.slpKind = .enterSleep)]

theorem sleepKindBit_eq (k : SleepKind) : sleepKindBit k = BitVec.ofBool (decide (k = .enterSleep)) := by
  cases k <;> rfl

/-- STATUS bit by bit; the bits above the fields are 0. -/
theorem statusWord_getLsbD (s : State) (k : Nat) : (statusWord s).getLsbD k = (statusBits s).getD k false := by
  simp only [statusWord, sleepKindBit_eq, BitVec.getLsbD_setWidth, BitVec.getLsbD_append, -Nat.reduceAdd]
  match k with
  | 0 | 1 | 2 | 3 | 4 | 5 | 6 | 7 => simp [statusBits]
  | k + 8 => simp [statusBits]

/-- After a reset the unit's fields are 0 and STATUS shows the drain agent's level alone (R24, R48). -/
theorem statusWord_reset (busy : Bool) :
    statusWord { State.reset with drainBusy := busy } = if busy then 0x10#32 else 0#32 := by
  cases busy <;> decide

/-- Settles O17: STATUS bit by bit, and its value after a reset. -/
theorem statusIsALiveView : Obligations.StatusIsALiveView := by
  refine ⟨fun s => ⟨statusWord s, rfl, ?_⟩, fun _ _ => rfl, fun s => ?_⟩
  · simp only [statusWord_getLsbD]
    refine ⟨?_, ?_, ?_, rfl, rfl, ?_, rfl, ?_, fun k hk => List.getD_eq_default _ _ hk⟩
    · simp [statusBits, convBusyFlag]
    · simp [statusBits, convWaitFlag]
    · simp [statusBits, blBusyFlag]
    · simp [statusBits, errFlag]
    · simp [statusBits]
  · rw [← statusWord_reset]
    rfl

/-- Settles O23: the reads of CMD and offset 0x1C answer 0, the writes answer the state they are given. -/
theorem reservedReadsAndWrites : Obligations.ReservedReadsAndWrites :=
  fun _ _ => ⟨rfl, rfl, rfl, rfl⟩

end Sys2Proof.Machine
end

section
/-! SUPPORT. Pixel reads (20_memory.md R61 to R70): the addresses they use, and that host memory takes part in a step
through them alone. -/

namespace Sys2Proof.Machine

/-! ## Addresses of the framebuffer -/

/-- The address of pixel i as arithmetic (R68, R127). -/
theorem pixelAddr_toNat (base : Word) (i : Nat) : (pixelAddr base i).toNat = (base.toNat + 4 * i) % 2 ^ 32 := by
  simp [pixelAddr, Config.srcStride]

/-- A byte of pixel i, its address as arithmetic (R63, R68). -/
theorem pixelByte_eq (s : State) (base : Word) (i j : Nat) :
    pixelByte s base i j = memByte s.hostMem ((base.toNat + 4 * i + j) % 2 ^ 32) := by
  simp [pixelByte, pixelAddr_toNat]

/-- Pixels lie row by row (R32, R127). -/
theorem pixelXY_rowMajor {x : Nat} (y : Nat) (hx : x < 160) :
    pixelX (y * 160 + x) = x ∧ pixelY (y * 160 + x) = y := by
  simp only [pixelX, pixelY, Config.srcW]
  omega

/-- No pixel of an aligned framebuffer is misaligned (R68). -/
theorem pixelAddr_aligned {base : Word} (h : base.toNat % 4 = 0) (i : Nat) : (pixelAddr base i).toNat % 4 = 0 := by
  rw [pixelAddr_toNat]
  omega

/-- Settles O27: the read is that of the pixel's four bytes, each at its address as arithmetic. -/
theorem pixelsAreReadAtBasePlusFourI : Obligations.PixelsAreReadAtBasePlusFourI := by
  refine ⟨fun s r g b pad => ?_, pixelAddr_toNat, fun base x y hx _ => ?_, fun s i h => ?_⟩
  · simp only [pixelRead, memRead_pixel, pixelByte_eq, Nat.add_zero]
  · obtain ⟨hX, hY⟩ := pixelXY_rowMajor y hx
    exact ⟨hX, hY, pixelAddr_toNat ..⟩
  · exact pixelAddr_aligned h.base_aligned i

/-! ## A step on another host memory -/

/-- A read depends on the bytes it covers alone (R67). -/
theorem memRead_congr {m m' : Memory} {n : Nat} {a : Word}
    (h : ∀ k < n, memByte m (a + BitVec.ofNat 32 k).toNat = memByte m' (a + BitVec.ofNat 32 k).toNat) :
    memRead m a n = memRead m' a n := by
  induction n generalizing a with
  | zero => rfl
  | succ n ih =>
    have hhead : memByte m a.toNat = memByte m' a.toNat := by simpa using h 0 (by omega)
    have hrest : memRead m (a + 1) n = memRead m' (a + 1) n := by
      refine ih fun k hk => ?_
      have hshift : a + 1 + BitVec.ofNat 32 k = a + BitVec.ofNat 32 (k + 1) := by
        rw [Nat.add_comm k, BitVec.ofNat_add, BitVec.add_assoc]
        rfl
      rw [hshift]
      exact h (k + 1) (by omega)
    rw [memRead, memRead, hhead, hrest]

/-- What a step answers, its next state put on host memory `m`. -/
def onHostMem (m : Memory) : Result → Result
  | .next t => .next (t.withHostMem m)
  | .fault f => .fault f
  | .refused r => .refused r

variable (m : Memory) (s : State)

theorem ite_withHostMem (c : Prop) [Decidable c] (t u : State) :
    (if c then t else u).withHostMem m = if c then t.withHostMem m else u.withHostMem m :=
  apply_ite (State.withHostMem · m) c t u

theorem onHostMem_ite (c : Prop) [Decidable c] (x y : Result) :
    onHostMem m (if c then x else y) = if c then onHostMem m x else onHostMem m y :=
  apply_ite (onHostMem m) c x y

theorem raiseCmdError_withHostMem (c : ErrCode) :
    raiseCmdError c (s.withHostMem m) = (raiseCmdError c s).withHostMem m := by
  rw [raiseCmdError, raiseCmdError, ite_withHostMem]
  rfl

theorem acceptConvert_withHostMem : acceptConvert (s.withHostMem m) = (acceptConvert s).withHostMem m := by
  rw [acceptConvert, acceptConvert, ite_withHostMem, raiseCmdError_withHostMem]
  rfl

theorem applyBrightness_withHostMem (b : Byte) :
    applyBrightness b (s.withHostMem m) = (applyBrightness b s).withHostMem m := by
  simp only [applyBrightness, ite_withHostMem]
  rfl

theorem acceptSetBacklight_withHostMem (b : Byte) :
    acceptSetBacklight b (s.withHostMem m) = (acceptSetBacklight b s).withHostMem m := by
  rw [acceptSetBacklight, acceptSetBacklight, ite_withHostMem, raiseCmdError_withHostMem,
    ← applyBrightness_withHostMem]
  rfl

theorem writeCmd_withHostMem (w : Word) : writeCmd w (s.withHostMem m) = (writeCmd w s).withHostMem m := by
  unfold writeCmd
  match decodeCmd w with
  | .error code => exact raiseCmdError_withHostMem m s code
  | .ok .convert => exact acceptConvert_withHostMem m s
  | .ok (.setBacklight b) => exact acceptSetBacklight_withHostMem m s b

theorem acknowledge_withHostMem : acknowledge (s.withHostMem m) = (acknowledge s).withHostMem m := by
  unfold acknowledge
  simp only [withHostMem_blState]
  cases s.blState <;> rfl

/-- No instruction reads or writes host memory (R62). -/
theorem exec_withHostMem (i : Instr) : exec i (s.withHostMem m) = onHostMem m (exec i s) := by
  cases i with
  | convert => exact congrArg _ (acceptConvert_withHostMem m s)
  | setBacklight b => exact congrArg _ (acceptSetBacklight_withHostMem m s b)
  | wrCmd w => exact congrArg _ (writeCmd_withHostMem m s w)
  | wrErr d =>
    rw [exec, exec, execWrErr, execWrErr, onHostMem, ite_withHostMem]
    rfl
  | drainRd i =>
    rw [exec, exec, execDrainRd, execDrainRd, onHostMem_ite]
    rfl
  | slpAck =>
    rw [exec, exec, execSlpAck, execSlpAck, onHostMem_ite, acknowledge_withHostMem]
    rfl
  | rdCmd | rdStatus | wrStatus _ | rdErr | rdFbBase | wrFbBase _ | rdConfig | wrConfig _ | rdBrightness
  | wrBrightness _ | rdDuty | wrDuty _ | rdRsvd | wrRsvd _ | drainStart | drainEnd => rfl

theorem runRequest_withHostMem (r : Request) : runRequest r (s.withHostMem m) = onHostMem m (runRequest r s) := by
  simp only [runRequest, withHostMem_hrep]
  match decode s.hrep r with
  | .ok i => exact exec_withHostMem m s i
  | .error (.command code) => exact congrArg _ (raiseCmdError_withHostMem m s code)
  | .error .unsupportedAccess | .error .drainIndexOutOfRange => rfl

theorem interlockStep_withHostMem : interlockStep (s.withHostMem m) = (interlockStep s).withHostMem m := by
  rw [interlockStep, interlockStep, ite_withHostMem]
  rfl

theorem loseRead_withHostMem : loseRead (s.withHostMem m) = (loseRead s).withHostMem m := by
  rw [loseRead, loseRead, ite_withHostMem]
  rfl

/-- `m` and the host memory of `s` agree on the framebuffer at `base` (R61). -/
def FramebufferAgrees (m : Memory) (s : State) (base : Word) : Prop :=
  ∀ i < Config.srcN, ∀ j < 4, pixelByte (s.withHostMem m) base i j = pixelByte s base i j

variable {m s}

/-- The pixel read of an index in range is inside the framebuffer (R62, R132). -/
theorem pixelRead_withHostMem (h : FramebufferAgrees m s s.convBase) (hi : s.convIdx < Config.srcN) :
    pixelRead (s.withHostMem m) = pixelRead s :=
  memRead_congr (h s.convIdx hi)

theorem pixelStep_withHostMem (h : Hrep) (hread : pixelRead (s.withHostMem m) = pixelRead s) :
    pixelStep h (s.withHostMem m) = (pixelStep h s).withHostMem m := by
  simp only [pixelStep, hread]
  split <;> rfl

theorem convTurn_withHostMem (h : FramebufferAgrees m s s.convBase) :
    convTurn (s.withHostMem m) = (convTurn s).withHostMem m := by
  match hc : s.convState with
  | .idle => simp only [convTurn, withHostMem_convState, hc]
  | .waitDrain => simp only [convTurn, withHostMem_convState, hc, interlockStep_withHostMem]
  | .converting =>
    have hdue : pixelDue (s.withHostMem m) = pixelDue s := rfl
    match hp : pixelDue s with
    | false => simp [convTurn, hc, hdue, hp]
    | true =>
      have hread := pixelRead_withHostMem h ((pixelDue_iff s).1 hp).2.2
      simp [convTurn, hc, hdue, hp, pixelStep_withHostMem s.hrep hread]

/-- An event that neither stores to nor maps host memory does the same on two memories that agree on the framebuffer
(R62). -/
theorem runEvent_withHostMem {e : Event} (he : ∀ addr bytes, e ≠ .hostStore addr bytes ∧ e ≠ .mapMemory addr bytes)
    (h : FramebufferAgrees m s s.convBase) : runEvent e (s.withHostMem m) = onHostMem m (runEvent e s) := by
  match e with
  | .request r => exact runRequest_withHostMem m s r
  | .convTurn => exact congrArg _ (convTurn_withHostMem h)
  | .readLost => exact congrArg _ (loseRead_withHostMem m s)
  | .reset => rfl
  | .hostStore addr bytes => exact absurd rfl (he addr bytes).1
  | .mapMemory addr bytes => exact absurd rfl (he addr bytes).2

theorem step_withHostMem {t : State} {e : Event} {rest : List Event} (hin : s.inputs = e :: rest)
    (he : ∀ addr bytes, e ≠ .hostStore addr bytes ∧ e ≠ .mapMemory addr bytes)
    (h : FramebufferAgrees m s s.convBase) (hst : step s = .next t) :
    step (s.withHostMem m) = .next (t.withHostMem m) := by
  have hrun : runEvent e (s.withInputs rest) = .next t := (step_cons hin).symm.trans hst
  calc step (s.withHostMem m)
    _ = runEvent e ((s.withInputs rest).withHostMem m) := step_cons hin
    _ = onHostMem m (runEvent e (s.withInputs rest)) := runEvent_withHostMem he h
    _ = .next (t.withHostMem m) := by rw [hrun, onHostMem]

/-- A step run on the memory it has already answers a state with that memory: so it wrote none (R62). -/
theorem step_keeps_hostMem {t : State} {e : Event} {rest : List Event} (hin : s.inputs = e :: rest)
    (he : ∀ addr bytes, e ≠ .hostStore addr bytes ∧ e ≠ .mapMemory addr bytes) (hst : step s = .next t) :
    t.hostMem = s.hostMem := by
  have hsame : step s = .next (t.withHostMem s.hostMem) :=
    step_withHostMem (m := s.hostMem) hin he (fun _ _ _ _ => rfl) hst
  rw [hst, Host.Outcome.next.injEq] at hsame
  calc t.hostMem
    _ = (t.withHostMem s.hostMem).hostMem := congrArg State.hostMem hsame
    _ = s.hostMem := rfl

/-- Settles O44: a step commutes with putting another host memory that agrees on the framebuffer. -/
theorem hostMemoryIsReadOnlyAndOnlyInTheFramebuffer :
    Obligations.HostMemoryIsReadOnlyAndOnlyInTheFramebuffer :=
  ⟨fun _ _ _ _ hin he hst a => congrArg (memByte · a) (step_keeps_hostMem hin he hst),
    fun _ _ _ _ _ hin he hag hst => step_withHostMem hin he hag hst⟩

end Sys2Proof.Machine
end

section
/-! SUPPORT. Command words (30_encoding.md R90 to R95): a word is its three fields, and they say what it decodes to. -/

namespace Sys2Proof

/-! ## The fields -/

/-- Of three fields put together, RSV and ARG are the lower two (R90). -/
theorem cmdRsv_append (op : BitVec 8) (rsv : BitVec 16) (arg : Byte) : cmdRsv (op ++ (rsv ++ arg)) = rsv :=
  calc cmdRsv (op ++ (rsv ++ arg))
    _ = (rsv ++ arg).extractLsb' 8 16 := BitVec.extractLsb'_append_eq_of_add_le (by decide)
    _ = rsv := BitVec.extractLsb'_append_eq_left

theorem cmdArg_append (op : BitVec 8) (rsv : BitVec 16) (arg : Byte) : cmdArg (op ++ (rsv ++ arg)) = arg :=
  calc cmdArg (op ++ (rsv ++ arg))
    _ = (rsv ++ arg).extractLsb' 0 8 := BitVec.extractLsb'_append_eq_of_add_le (by decide)
    _ = arg := BitVec.extractLsb'_append_eq_right

theorem append_fields (w : Word) : cmdOp w ++ (cmdRsv w ++ cmdArg w) = w :=
  calc cmdOp w ++ (cmdRsv w ++ cmdArg w)
    _ = w.extractLsb' 24 8 ++ w.extractLsb' 0 24 :=
      congrArg (cmdOp w ++ ·) (BitVec.extractLsb'_append_extractLsb'_eq_extractLsb' rfl)
    _ = w := BitVec.extractLsb'_append_extractLsb' (w := 8) (len := 24)

/-- A word is given by OP, RSV and ARG (R90). -/
theorem eq_append_iff {w : Word} {op : BitVec 8} {rsv : BitVec 16} {arg : Byte} :
    w = op ++ (rsv ++ arg) ↔ cmdOp w = op ∧ cmdRsv w = rsv ∧ cmdArg w = arg := by
  constructor
  · rintro rfl
    exact ⟨BitVec.extractLsb'_append_eq_left, cmdRsv_append .., cmdArg_append ..⟩
  · rintro ⟨rfl, rfl, rfl⟩
    exact (append_fields w).symm

theorem cmdOp_eq_iff {w : Word} {op : BitVec 8} : cmdOp w = op ↔ w.toNat / 2 ^ 24 = op.toNat := by
  rw [← BitVec.toNat_inj, cmdOp_toNat]

theorem cmdRsv_eq_zero_iff {w : Word} : cmdRsv w = 0#16 ↔ w.toNat / 2 ^ 8 % 2 ^ 16 = 0 := by
  rw [← BitVec.toNat_inj, cmdRsv_toNat, BitVec.toNat_ofNat, Nat.zero_mod]

/-- RSV and ARG are the bits below OP (R90). -/
theorem cmdRsv_cmdArg_eq_zero_iff {w : Word} : cmdRsv w = 0#16 ∧ cmdArg w = 0#8 ↔ w.toNat % 2 ^ 24 = 0 := by
  rw [cmdRsv_eq_zero_iff, ← BitVec.toNat_inj, cmdArg_toNat, BitVec.toNat_ofNat]
  omega

/-! ## What the fields decode to -/

/-- What a command word can decode to, by its opcode (R95). -/
theorem decodeCmd_cases (w : Word) :
    (cmdOp w = 0x01#8 ∧ (cmdRsv w = 0#16 ∧ cmdArg w = 0#8) ∧ decodeCmd w = .ok .convert) ∨
    (cmdOp w = 0x01#8 ∧ ¬ (cmdRsv w = 0#16 ∧ cmdArg w = 0#8) ∧ decodeCmd w = .error .reservedBits) ∨
    (cmdOp w = 0x02#8 ∧ cmdRsv w = 0#16 ∧ decodeCmd w = .ok (.setBacklight (cmdArg w))) ∨
    (cmdOp w = 0x02#8 ∧ cmdRsv w ≠ 0#16 ∧ decodeCmd w = .error .reservedBits) ∨
    (cmdOp w ≠ 0x01#8 ∧ cmdOp w ≠ 0x02#8 ∧ decodeCmd w = .error .illegalOpcode) := by
  by_cases h1 : cmdOp w = 0x01#8
  · by_cases hlow : cmdRsv w = 0#16 ∧ cmdArg w = 0#8
    · exact .inl ⟨h1, hlow, by simp [decodeCmd, h1, hlow]⟩
    · exact .inr (.inl ⟨h1, hlow, by simp only [decodeCmd, h1, if_true, if_pos (not_and_or.1 hlow)]⟩)
  · by_cases h2 : cmdOp w = 0x02#8
    · by_cases hr : cmdRsv w = 0#16
      · exact .inr (.inr (.inl ⟨h2, hr, by simp [decodeCmd, h2, hr]⟩))
      · exact .inr (.inr (.inr (.inl ⟨h2, hr, by simp [decodeCmd, h2, hr]⟩)))
    · exact .inr (.inr (.inr (.inr ⟨h1, h2, by simp [decodeCmd, h1, h2]⟩)))

theorem decodeCmd_eq_convert_iff {w : Word} :
    decodeCmd w = .ok .convert ↔ cmdOp w = 0x01#8 ∧ cmdRsv w = 0#16 ∧ cmdArg w = 0#8 := by
  rcases decodeCmd_cases w with h | h | h | h | h <;> simp [h]

theorem decodeCmd_eq_setBacklight_iff {w : Word} {b : Byte} :
    decodeCmd w = .ok (.setBacklight b) ↔ cmdOp w = 0x02#8 ∧ cmdRsv w = 0#16 ∧ cmdArg w = b := by
  rcases decodeCmd_cases w with h | h | h | h | h <;> simp [h]

theorem decodeCmd_eq_illegalOpcode_iff {w : Word} :
    decodeCmd w = .error .illegalOpcode ↔ cmdOp w ≠ 0x01#8 ∧ cmdOp w ≠ 0x02#8 := by
  rcases decodeCmd_cases w with h | h | h | h | h <;> simp [h]

theorem decodeCmd_eq_reservedBits_iff {w : Word} :
    decodeCmd w = .error .reservedBits ↔
      (cmdOp w = 0x01#8 ∧ ¬ (cmdRsv w = 0#16 ∧ cmdArg w = 0#8)) ∨ (cmdOp w = 0x02#8 ∧ cmdRsv w ≠ 0#16) := by
  rcases decodeCmd_cases w with h | h | h | h | h <;> simp [h]

/-- The words that decode to a command are those the encoder makes: one for CONVERT, one for each brightness of
SET_BACKLIGHT (R93, R94). -/
theorem decodeCmd_eq_ok_iff {w : Word} {c : Cmd} : decodeCmd w = .ok c ↔ w = encodeCmd c := by
  cases c with
  | convert => exact decodeCmd_eq_convert_iff.trans eq_append_iff.symm
  | setBacklight b => exact decodeCmd_eq_setBacklight_iff.trans eq_append_iff.symm

/-- SET_BACKLIGHT's word is its base word plus the brightness (R94). -/
theorem encodeCmd_setBacklight (b : Byte) : encodeCmd (.setBacklight b) = 0x02000000#32 + b.setWidth 32 := by
  revert b
  decide

/-- Settles O2: the fields say what a word decodes to, and they are its quotients and remainders. -/
theorem commandWordDecodesByRule95 : Obligations.CommandWordDecodesByRule95 := by
  intro w
  refine ⟨decodeCmd_eq_ok_iff, fun b => ?_, ?_, ?_⟩
  · rw [decodeCmd_eq_ok_iff, encodeCmd_setBacklight]
  · rw [decodeCmd_eq_illegalOpcode_iff, Ne, Ne, cmdOp_eq_iff, cmdOp_eq_iff]
    rfl
  · rw [decodeCmd_eq_reservedBits_iff, cmdRsv_cmdArg_eq_zero_iff, Ne, cmdRsv_eq_zero_iff, cmdOp_eq_iff, cmdOp_eq_iff]
    rfl

/-- Settles O1: the nine words run through the decoder. -/
theorem workedCommandWords : Obligations.WorkedCommandWords :=
  fun _ => ⟨rfl, rfl, rfl, rfl, rfl, rfl, rfl, rfl, rfl⟩

end Sys2Proof
end

section
/-! SUPPORT. What each register access and each port event decodes to (30_encoding.md R99), and what WR_CMD does with
its data word (R190). -/

namespace Sys2Proof.Machine

@[simp] theorem regAt_regOffset (g : Reg) : regAt (regOffset g) = some g :=
  regAt_eq_some.2 rfl

@[simp] theorem decode_readOf (h : Hrep) (g : Reg) : decode h (readOf g) = .ok (readInstr g) := by
  simp [decode, readOf, decodeAccess]

@[simp] theorem decode_writeOf (h : Hrep) (g : Reg) (d : Word) : decode h (writeOf g d) = .ok (writeInstr d g) := by
  simp [decode, writeOf, decodeAccess]

/-- Only an aligned 32-bit access is decoded (R66, R206). -/
theorem decode_unsupported (h : Hrep) {width : Nat} {offset : BitVec 5} (d : Word)
    (hu : width ≠ 4 ∨ offset.toNat % 4 ≠ 0) :
    decode h (.mmio (.read width offset)) = .error .unsupportedAccess ∧
      decode h (.mmio (.write width offset d)) = .error .unsupportedAccess := by
  by_cases hw : width = 4
  · have hg : regAt offset = none := (regAt_eq_none offset).2 (hu.resolve_left (not_not.2 hw))
    simp [decode, decodeAccess, hg]
  · simp [decode, decodeAccess, hw]

/-- The cells of the back-buffer, counted (R7). -/
theorem dstN_eq (h : Hrep) : Config.dstN h = 38400 * h.val := by
  cases h <;> rfl

theorem decode_drainRead {h : Hrep} {i : Nat} (hi : i < 38400 * h.val) :
    decode h (.port (.drainRead i)) = .ok (.drainRd i) :=
  if_pos (hi.trans_eq (dstN_eq h).symm)

/-- A command's own row is its acceptance by its unit (R130, R154). -/
theorem exec_cmdInstr (c : Cmd) (s : State) : exec (cmdInstr c) s = .next (acceptCmd c s) := by
  cases c <;> rfl

theorem writeCmd_of_ok {w : Word} {c : Cmd} (hd : decodeCmd w = .ok c) (s : State) : writeCmd w s = acceptCmd c s := by
  rw [writeCmd, hd]

theorem writeCmd_of_error {w : Word} {code : ErrCode} (hd : decodeCmd w = .error code) (s : State) :
    writeCmd w s = raiseCmdError code s := by
  rw [writeCmd, hd]

theorem exec_wrCmd (w : Word) (s : State) : exec (.wrCmd w) s = .next (writeCmd w s) := rfl

theorem exec_wrCmd_of_ok {w : Word} {c : Cmd} (hd : decodeCmd w = .ok c) (s : State) :
    exec (.wrCmd w) s = exec (cmdInstr c) s := by
  rw [exec_wrCmd, writeCmd_of_ok hd, exec_cmdInstr]

theorem exec_wrCmd_of_error {w : Word} {code : ErrCode} (hd : decodeCmd w = .error code) (s : State) :
    exec (.wrCmd w) s = .next (raiseCmdError code s) := by
  rw [exec_wrCmd, writeCmd_of_error hd]

/-- Settles O3: each register row is the row of its register, and the rest is one lemma per clause. -/
theorem registerAndPortRowsDecodeByRule99 : Obligations.RegisterAndPortRowsDecodeByRule99 := by
  refine ⟨fun h d => ?_, fun _ _ => decode_drainRead, fun _ => ⟨rfl, rfl, rfl⟩, fun h _ _ d => decode_unsupported h d,
    fun _ s => ⟨fun _ hd => exec_wrCmd_of_ok hd s, fun _ hd => exec_wrCmd_of_error hd s⟩⟩
  have rd := decode_readOf h
  have wr := (decode_writeOf h · d)
  exact ⟨wr .cmd, rd .cmd, rd .status, wr .status, rd .err, wr .err, rd .fbBase, wr .fbBase, rd .config, wr .config,
    rd .brightness, wr .brightness, rd .duty, wr .duty, rd .rsvd, wr .rsvd⟩

end Sys2Proof.Machine
end

section
/-! SUPPORT. The destination cells of the source pixels (40_converter.md R123 to R125): each cell of the back-buffer is
a cell of one pixel, which the inverse map gives. -/

namespace Sys2Proof.Machine

theorem dstW_eq (h : Hrep) : Config.dstW h = 160 * h.val := rfl

/-- The cells of a pixel, listed. -/
theorem destCells_one (x y : Nat) : destCells .one x y = [2 * y * 160 + x, (2 * y + 1) * 160 + x] := by
  simp [destCells, Config.vrep, Config.dstW, Config.srcW, Hrep.val, List.range_succ]

theorem destCells_two (x y : Nat) :
    destCells .two x y =
      [2 * y * 320 + 2 * x, 2 * y * 320 + 2 * x + 1, (2 * y + 1) * 320 + 2 * x, (2 * y + 1) * 320 + 2 * x + 1] := by
  simp [destCells, Config.vrep, Config.dstW, Config.srcW, Hrep.val, List.range_succ]

theorem destCells_nodup (h : Hrep) (x y : Nat) : (destCells h x y).Nodup := by
  cases h with
  | one => simp [destCells_one]
  | two => simp [destCells_two]; omega

theorem destCells_length (h : Hrep) (x y : Nat) : (destCells h x y).length = 2 * h.val := by
  cases h with
  | one => rw [destCells_one]; rfl
  | two => rw [destCells_two]; rfl

/-- A cell is a cell of the inverse map's pixel and of no other (R125). -/
theorem mem_destCells_iff {h : Hrep} {x : Nat} (hx : x < 160) (y c : Nat) :
    c ∈ destCells h x y ↔ x = c % Config.dstW h / h.val ∧ y = c / Config.dstW h / 2 := by
  cases h with
  | one => simp [destCells_one, dstW_eq, Hrep.val]; omega
  | two => simp [destCells_two, dstW_eq, Hrep.val]; omega

/-- The inverse map's pixel is a source pixel exactly for the cells of the back-buffer (R124, R125). -/
theorem destColumn_lt (h : Hrep) (c : Nat) : c % Config.dstW h / h.val < 160 := by
  cases h <;> simp only [dstW_eq, Hrep.val] <;> omega

theorem destRow_lt_iff (h : Hrep) (c : Nat) : c / Config.dstW h / 2 < 120 ↔ c < Config.dstN h := by
  cases h <;> simp only [dstW_eq, dstN_eq, Hrep.val] <;> omega

theorem mem_destCells_inverse (h : Hrep) (c : Nat) :
    c ∈ destCells h (c % Config.dstW h / h.val) (c / Config.dstW h / 2) :=
  (mem_destCells_iff (destColumn_lt h c) _ c).2 ⟨rfl, rfl⟩

/-- Settles O37: a cell lies in a pixel's cells exactly where the inverse map gives that pixel. -/
theorem destinationCellsPartitionTheBackBuffer : Obligations.DestinationCellsPartitionTheBackBuffer := by
  refine fun h => ⟨rfl, dstN_eq h, fun x y _ _ => ⟨destCells_nodup h x y, destCells_length h x y, fun c =>
    mem_destCells h x y c⟩, fun x y c hx hy hc => ?_, fun c hc => ?_⟩
  · obtain ⟨hX, hY⟩ := (mem_destCells_iff hx y c).1 hc
    exact ⟨(destRow_lt_iff h c).1 (hY ▸ hy), hX, hY⟩
  · exact ⟨destColumn_lt h c, (destRow_lt_iff h c).2 hc, mem_destCells_inverse h c⟩

/-- Two source pixels with a cell in common are one (R124). -/
theorem eq_of_mem_destCells {h : Hrep} {i k c : Nat} (hi : c ∈ destCells h (pixelX i) (pixelY i))
    (hk : c ∈ destCells h (pixelX k) (pixelY k)) : i = k := by
  obtain ⟨hix, hiy⟩ := (mem_destCells_iff (Nat.mod_lt i (by decide)) _ c).1 hi
  obtain ⟨hkx, hky⟩ := (mem_destCells_iff (Nat.mod_lt k (by decide)) _ c).1 hk
  have hx : pixelX i = pixelX k := hix.trans hkx.symm
  have hy : pixelY i = pixelY k := hiy.trans hky.symm
  simp only [pixelX, pixelY, Config.srcW] at hx hy
  omega

end Sys2Proof.Machine
end

section
/-! SUPPORT. The packed pixel (40_converter.md R120 to R122): its three fields, as bits and as arithmetic. -/

namespace Sys2Proof.Machine

/-- Each channel's mask and shift put its upper bits in a field of their own (R120). -/
theorem pack_red_field (r : Byte) : (r &&& 0xF8#8).setWidth 16 <<< 8 = r.extractLsb' 3 5 ++ 0#6 ++ 0#5 := by
  revert r
  decide

theorem pack_green_field (g : Byte) : (g &&& 0xFC#8).setWidth 16 <<< 3 = 0#5 ++ g.extractLsb' 2 6 ++ 0#5 := by
  revert g
  decide

theorem pack_blue_field (b : Byte) : (b >>> 3).setWidth 16 = 0#5 ++ 0#6 ++ b.extractLsb' 3 5 := by
  revert b
  decide

/-- Fields that do not overlap, put together. -/
theorem or_fields_eq_append (x : BitVec 5) (y : BitVec 6) (z : BitVec 5) :
    (x ++ 0#6 ++ 0#5) ||| (0#5 ++ y ++ 0#5) ||| (0#5 ++ 0#6 ++ z) = x ++ y ++ z := by
  simp only [BitVec.or_append, BitVec.or_zero, BitVec.zero_or]

/-- The kept bits of the channels, one after the other (R121). -/
theorem pack_eq_append (r g b : Byte) :
    pack r g b = r.extractLsb' 3 5 ++ g.extractLsb' 2 6 ++ b.extractLsb' 3 5 := by
  rw [pack, pack_red_field, pack_green_field, pack_blue_field]
  exact or_fields_eq_append ..

/-- The value of two words put together. -/
theorem toNat_append_eq {m n : Nat} (x : BitVec m) (y : BitVec n) : (x ++ y).toNat = x.toNat * 2 ^ n + y.toNat := by
  rw [BitVec.toNat_append, ← Nat.shiftLeft_add_eq_or_of_lt y.isLt, Nat.shiftLeft_eq]

theorem pack_toNat (r g b : Byte) :
    (pack r g b).toNat = r.toNat / 8 * 2048 + g.toNat / 4 * 32 + b.toNat / 8 := by
  rw [pack_eq_append, toNat_append_eq, toNat_append_eq]
  simp only [BitVec.extractLsb'_toNat, Nat.shiftRight_eq_div_pow]
  omega

/-- Settles O35: the append of the kept bits, and its value. -/
theorem packIsFiveSixFive : Obligations.PackIsFiveSixFive :=
  fun r g b => ⟨pack_toNat r g b, pack_eq_append r g b⟩

theorem pack_eq_iff (r g b : Byte) (p : Pixel) :
    pack r g b = p ↔ r.toNat / 8 * 2048 + g.toNat / 4 * 32 + b.toNat / 8 = p.toNat := by
  rw [← BitVec.toNat_inj, pack_toNat]

/-- A packed pixel's channels, back at their places in a byte. -/
theorem pack_surjective (p : Pixel) :
    pack (BitVec.ofNat 8 (p.toNat / 2048 * 8)) (BitVec.ofNat 8 (p.toNat / 32 * 4)) (BitVec.ofNat 8 (p.toNat * 8)) =
      p := by
  rw [pack_eq_iff]
  simp only [BitVec.toNat_ofNat]
  omega

/-- Settles O36: each clause is arithmetic on the value of the packed pixel. -/
theorem packProperties : Obligations.PackProperties := by
  refine ⟨fun p => ⟨_, _, _, pack_surjective p⟩, fun r g b r' g' b' => ?_, fun r g b => ?_, fun r g b => ?_⟩
  · rw [pack_eq_iff, pack_toNat]
    omega
  · rw [pack_eq_iff, BitVec.toNat_ofNat]
    omega
  · rw [pack_eq_iff, BitVec.toNat_ofNat]
    omega

end Sys2Proof.Machine
end

section
/-! SUPPORT. The two units apart (40_converter.md R136): each one's steps change its own variables, from its own
variables and what neither unit writes, so their order does not matter. -/

namespace Sys2Proof.Machine

/-- `s` with the converter's variables of `u` (R31 to R34). -/
def State.withConverterOf (s u : State) : State :=
  { s with convState := u.convState, convIdx := u.convIdx, convBase := u.convBase, bb := u.bb, readHung := u.readHung }

/-- `s` with the backlight's variables of `u`, its request to the sequencer, and ERR, where its command may be rejected
(R25, R28, R29, R35 to R37, R41). -/
def State.withBacklightOf (s u : State) : State :=
  { s with
    brightness := u.brightness, duty := u.duty, displaySleep := u.displaySleep, blState := u.blState,
    blPending := u.blPending, slpReq := u.slpReq, slpKind := u.slpKind, errCode := u.errCode, errOvf := u.errOvf }

/-! ## The converter's steps -/

theorem convTurn_frame (s : State) : convTurn s = s.withConverterOf (convTurn s) := by
  rcases convTurn_cases s with h | ⟨-, -, h⟩ | ⟨-, -, -, r, g, b, p, -, h⟩ | ⟨-, -, -, -, h⟩ <;> rw [h] <;> rfl

theorem ite_withBacklightOf (c : Prop) [Decidable c] (s t u : State) :
    (if c then s else t).withBacklightOf u = if c then s.withBacklightOf u else t.withBacklightOf u :=
  apply_ite (State.withBacklightOf · u) c s t

theorem pixelStep_withBacklightOf (h : Hrep) (s u : State) :
    pixelStep h (s.withBacklightOf u) = (pixelStep h s).withBacklightOf u := by
  have hread : pixelRead (s.withBacklightOf u) = pixelRead s := rfl
  simp only [pixelStep, hread]
  split <;> rfl

theorem convTurn_withBacklightOf (s u : State) : convTurn (s.withBacklightOf u) = (convTurn s).withBacklightOf u := by
  have hstate : (s.withBacklightOf u).convState = s.convState := rfl
  simp only [convTurn, hstate]
  match s.convState with
  | .idle => rfl
  | .waitDrain =>
    rw [interlockStep, interlockStep, ite_withBacklightOf]
    rfl
  | .converting =>
    rw [ite_withBacklightOf, ← pixelStep_withBacklightOf]
    rfl

/-! ## The backlight's steps -/

theorem ite_withConverterOf (c : Prop) [Decidable c] (s t u : State) :
    (if c then s else t).withConverterOf u = if c then s.withConverterOf u else t.withConverterOf u :=
  apply_ite (State.withConverterOf · u) c s t

theorem raiseCmdError_frame (code : ErrCode) (s : State) :
    raiseCmdError code s = s.withErr (raiseCmdError code s).errCode (raiseCmdError code s).errOvf := by
  rcases raiseCmdError_cases code s with ⟨-, h⟩ | ⟨-, h⟩ <;> rw [h] <;> rfl

theorem acceptSetBacklight_frame (b : Byte) (s : State) :
    acceptSetBacklight b s = s.withBacklightOf (acceptSetBacklight b s) := by
  rcases acceptSetBacklight_cases b s with
    ⟨-, h⟩ | ⟨-, -, -, h⟩ | ⟨-, -, -, h⟩ | ⟨-, -, -, h⟩ | ⟨-, -, -, h⟩ <;> rw [h]
  · rw [raiseCmdError_frame]
    rfl
  all_goals rfl

theorem acknowledge_frame (s : State) : acknowledge s = s.withBacklightOf (acknowledge s) := by
  rcases acknowledge_cases s with ⟨-, h⟩ | ⟨-, h⟩ | ⟨-, h⟩ <;> rw [h] <;> rfl

theorem acceptSetBacklight_withConverterOf (b : Byte) (s u : State) :
    acceptSetBacklight b (s.withConverterOf u) = (acceptSetBacklight b s).withConverterOf u := by
  simp only [acceptSetBacklight, applyBrightness, raiseCmdError, ite_withConverterOf]
  rfl

theorem acknowledge_withConverterOf (s u : State) :
    acknowledge (s.withConverterOf u) = (acknowledge s).withConverterOf u := by
  have hstate : (s.withConverterOf u).blState = s.blState := rfl
  simp only [acknowledge, hstate]
  cases s.blState <;> rfl

/-- A step of the backlight unit commutes with a converter's turn. -/
theorem convTurn_comm {f : State → State} (hframe : ∀ s, f s = s.withBacklightOf (f s))
    (hblind : ∀ s u, f (s.withConverterOf u) = (f s).withConverterOf u) (s : State) :
    f (convTurn s) = convTurn (f s) :=
  calc f (convTurn s)
    _ = f (s.withConverterOf (convTurn s)) := congrArg f (convTurn_frame s)
    _ = (f s).withConverterOf (convTurn s) := hblind s _
    _ = (s.withBacklightOf (f s)).withConverterOf (convTurn s) := congrArg (State.withConverterOf · _) (hframe s)
    _ = (s.withConverterOf (convTurn s)).withBacklightOf (f s) := rfl
    _ = (convTurn s).withBacklightOf (f s) := congrArg (State.withBacklightOf · _) (convTurn_frame s).symm
    _ = convTurn (s.withBacklightOf (f s)) := (convTurn_withBacklightOf s _).symm
    _ = convTurn (f s) := congrArg convTurn (hframe s).symm

theorem exec_slpAck_eq_next {s t : State} : exec .slpAck s = .next t ↔ s.slpReq = true ∧ acknowledge s = t := by
  cases h : s.slpReq <;> simp [exec, execSlpAck, h]

/-- SET_BACKLIGHT is accepted by an idle unit: no error is recorded (R154). -/
theorem acceptSetBacklight_of_idle (b : Byte) {s : State} (hs : s.blState = .idle) :
    (acceptSetBacklight b s).brightness = b ∧ (acceptSetBacklight b s).errCode = s.errCode := by
  rcases acceptSetBacklight_cases b s with
    ⟨hbusy, -⟩ | ⟨-, -, -, h⟩ | ⟨-, -, -, h⟩ | ⟨-, -, -, h⟩ | ⟨-, -, -, h⟩
  · exact absurd hs hbusy
  all_goals rw [h]; exact ⟨rfl, rfl⟩

/-- CONVERT is accepted by an idle unit (R130). -/
theorem exec_convert_of_idle {s : State} (hs : s.convState = .idle) :
    exec .convert s = .next (s.withConv .waitDrain 0 (fbBaseWord s)) :=
  congrArg Host.Outcome.next (if_pos hs)

theorem acceptConvert_frame (s : State) :
    acceptConvert s =
      (s.withConverterOf (acceptConvert s)).withErr (acceptConvert s).errCode (acceptConvert s).errOvf := by
  rcases acceptConvert_cases s with ⟨-, h⟩ | ⟨-, h⟩ <;> rw [h]
  · rfl
  · rw [raiseCmdError_frame]
    rfl

/-- Settles O49: the frames of the two units' steps, and a backlight step commutes with a converter's turn. -/
theorem unitsShareNoState : Obligations.UnitsShareNoState := by
  refine ⟨fun s t b h => ?_, fun s t h => ?_, fun s bl hs => ?_, fun s cv b hs => ?_, fun s t b h => ?_,
    fun s t h => ?_⟩
  · obtain ⟨u, rfl⟩ : ∃ u, t = s.withBacklightOf u := by
      rcases h with h | h
      · exact ⟨_, (Host.Outcome.next.inj h).symm.trans (acceptSetBacklight_frame b s)⟩
      · exact ⟨_, (exec_slpAck_eq_next.1 h).2.symm.trans (acknowledge_frame s)⟩
    exact ⟨rfl, rfl, rfl, rfl, rfl, rfl⟩
  · obtain ⟨u, code, ovf, rfl⟩ : ∃ u code ovf, t = (s.withConverterOf u).withErr code ovf := by
      rcases h with h | h
      · exact ⟨_, _, _, (Host.Outcome.next.inj h).symm.trans (acceptConvert_frame s)⟩
      · exact ⟨_, _, _, h.symm.trans (convTurn_frame s)⟩
    exact ⟨rfl, rfl, rfl, rfl, rfl, rfl, rfl, rfl⟩
  · exact ⟨_, exec_convert_of_idle (s := { s with blState := bl }) hs, rfl, rfl⟩
  · exact ⟨_, rfl, acceptSetBacklight_of_idle b hs⟩
  · rw [← Host.Outcome.next.inj h]
    exact congrArg _ (convTurn_comm (acceptSetBacklight_frame b) (acceptSetBacklight_withConverterOf b) s)
  · obtain ⟨hreq, rfl⟩ := exec_slpAck_eq_next.1 h
    refine exec_slpAck_eq_next.2 ⟨?_, convTurn_comm acknowledge_frame acknowledge_withConverterOf s⟩
    rw [convTurn_frame]
    exact hreq

end Sys2Proof.Machine
end

section
/-! SUPPORT. One turn of the converter (40_converter.md R131, R132): the drain interlock and the pixel step. -/

namespace Sys2Proof.Machine

/-- A turn in WAIT_DRAIN with the drain over is the interlock step (R131). -/
theorem step_interlock {s : State} {rest : List Event} (hin : s.inputs = .convTurn :: rest)
    (hc : s.convState = .waitDrain) (hd : s.drainBusy = false) :
    step s = .next ((s.withInputs rest).withConv .converting s.convIdx s.convBase) := by
  simp [step_convTurn hin, convTurn, interlockStep, hc, hd]

/-- A turn in WAIT_DRAIN while a drain runs is no step of the converter (R131). -/
theorem step_interlock_held {s : State} {rest : List Event} (hin : s.inputs = .convTurn :: rest)
    (hc : s.convState = .waitDrain) (hd : s.drainBusy = true) : step s = .next (s.withInputs rest) := by
  simp [step_convTurn hin, convTurn, interlockStep, hc, hd]

/-- The drain agent's level is not sampled in CONVERTING (R83, R131). -/
theorem convTurn_withDrainBusy {s : State} (level : Bool) (hc : s.convState = .converting) :
    convTurn (s.withDrainBusy level) = (convTurn s).withDrainBusy level := by
  have hdue : pixelDue (s.withDrainBusy level) = pixelDue s := rfl
  have hread : pixelRead (s.withDrainBusy level) = pixelRead s := rfl
  simp only [convTurn, withDrainBusy_convState, hc, hdue]
  match pixelDue s with
  | false => rfl
  | true =>
    simp only [pixelStep, hread, if_true]
    split <;> rfl

/-- Settles O26: the turn in WAIT_DRAIN by the level, and the turn in CONVERTING apart from it. -/
theorem interlockWaitsForTheDrain : Obligations.InterlockWaitsForTheDrain := by
  refine ⟨fun _ _ => step_interlock, fun _ _ => step_interlock_held, fun s t rest level hin hc hst => ?_⟩
  rw [step_convTurn hin, Host.Outcome.next.injEq] at hst
  calc step (s.withDrainBusy level)
    _ = .next (convTurn ((s.withInputs rest).withDrainBusy level)) := step_convTurn hin
    _ = .next ((convTurn (s.withInputs rest)).withDrainBusy level) := congrArg _ (convTurn_withDrainBusy level hc)
    _ = .next (t.withDrainBusy level) := by rw [hst]

/-- The cells of pixel i in literal arithmetic (R123). -/
theorem mem_destCells_pixel (h : Hrep) (i c : Nat) :
    c ∈ destCells h (pixelX i) (pixelY i) ↔
      ∃ dy < 2, ∃ dx < h.val, c = (2 * (i / 160) + dy) * (160 * h.val) + h.val * (i % 160) + dx :=
  mem_destCells h (pixelX i) (pixelY i) c

/-- Settles O28: the turn writes the pixel's cells, and a cell reads as the new pixel where it is one of them. -/
theorem pixelStepConvertsOnePixel : Obligations.PixelStepConvertsOnePixel := by
  intro s rest r g b pad hin hc hh hi hr hg hb hp
  have hdue : pixelDue (s.withInputs rest) = true := (pixelDue_iff _).2 ⟨hc, hh, hi⟩
  have hread : pixelRead (s.withInputs rest) = some [r, g, b, pad] :=
    (pixelsAreReadAtBasePlusFourI.1 _ r g b pad).2 ⟨hr, hg, hb, hp⟩
  have hbb := fun c => bbRead_withBb_bbWrite (pixelDone (s.withInputs rest))
    (destCells s.hrep (pixelX s.convIdx) (pixelY s.convIdx)) (pack r g b) c
  refine ⟨_, (step_convTurn hin).trans (congrArg _ (convTurn_of_read hdue hread)), rfl, fun dy hdy dx hdx => ?_,
    fun c hc => ?_⟩
  · exact (hbb _).trans (if_pos ((mem_destCells_pixel ..).2 ⟨dy, hdy, dx, hdx, rfl⟩))
  · refine (hbb c).trans (if_neg fun hmem => ?_)
    obtain ⟨dy, hdy, dx, hdx, heq⟩ := (mem_destCells_pixel ..).1 hmem
    exact hc dy hdy dx hdx heq

end Sys2Proof.Machine
end

section
/-! SUPPORT. A conversion over a run (40_converter.md R133 to R135): how far it has come, and what it has written. -/

namespace Sys2Proof.Machine

/-! ## Runs -/

/-- What one step adds to the count of R133. -/
theorem converterSteps_succ {s t : State} (n : Nat) (h : step s = .next t) :
    converterSteps (n + 1) s =
      (if s.inputs.head? = some .convTurn ∧ converterEnabled s = true then 1 else 0) + converterSteps n t := by
  rw [converterSteps, h]

/-- Where each step of a conversion keeps `P`, counting the converter's steps, a run up to its first IDLE state keeps
it. `ok` is what the run's events are known to be. -/
theorem run_keeps {P : Nat → State → Prop} {ok : Event → Prop} (hreset : ∀ e, ok e → e ≠ .reset)
    (hkeep : ∀ {k u v e rest}, P k u → u.convState ≠ .idle → u.inputs = e :: rest → ok e → step u = .next v →
      P (k + if e = .convTurn ∧ converterEnabled u = true then 1 else 0) v)
    {n k : Nat} {s t : State} (h : P k s) (hok : ∀ e ∈ s.inputs.take n, ok e)
    (hbusy : ∀ m < n, ∀ u, run m s = .next u → u.convState ≠ .idle) (hrun : run n s = .next t) :
    P (k + converterSteps n s) t := by
  induction n generalizing k s with
  | zero =>
    rw [run, Host.Outcome.next.injEq] at hrun
    exact hrun ▸ h
  | succ n ih =>
    obtain ⟨u, hu, hrest⟩ := run_succ hrun
    have hc : s.convState ≠ .idle := hbusy 0 (Nat.succ_pos n) s rfl
    have hbusy' : ∀ m < n, ∀ v, run m u = .next v → v.convState ≠ .idle := fun m hm v hv =>
      hbusy (m + 1) (Nat.succ_lt_succ hm) v ((run_step hu).trans hv)
    rw [converterSteps_succ n hu, ← Nat.add_assoc]
    match hin : s.inputs with
    | [] =>
      rw [step_nil hin, Host.Outcome.next.injEq] at hu
      subst hu
      exact ih h (by simp [hin]) hbusy' hrest
    | e :: rest =>
      rw [hin, List.take_succ_cons, List.forall_mem_cons] at hok
      obtain ⟨hoke, hokrest⟩ := hok
      obtain ⟨-, hinputs, -⟩ := step_converter hin (hreset e hoke) hu hc
      have hstep := hkeep h hc hin hoke hu
      simp only [List.head?_cons, Option.some.injEq]
      exact ih hstep (hinputs ▸ hokrest) hbusy' hrest

/-! ## How far a conversion has come -/

/-- `s` stands `k` of the converter's steps after the acceptance of CONVERT (R131 to R133). -/
def AtConverterStep (k : Nat) (s : State) : Prop :=
  match s.convState with
  | .waitDrain => s.convIdx = 0 ∧ k = 0
  | .converting => s.convIdx < Config.srcN ∧ k = 1 + s.convIdx
  | .idle => s.convIdx = Config.srcN ∧ k = 1 + Config.srcN

theorem step_keeps_atConverterStep {k : Nat} {s t : State} {e : Event} {rest : List Event} (h : AtConverterStep k s)
    (hc : s.convState ≠ .idle) (hin : s.inputs = e :: rest) (he : e ≠ .reset) (hst : step s = .next t) :
    AtConverterStep (k + if e = .convTurn ∧ converterEnabled s = true then 1 else 0) t := by
  obtain ⟨-, -, ⟨hturn, hen, ⟨hs, ht, hidx⟩ | ⟨hs, hidx, hlt, ht⟩⟩ | ⟨hno, hstate, hidx⟩⟩ :=
    step_converter hin he hst hc
  · simp only [AtConverterStep, hs] at h
    simp [AtConverterStep, ht, hidx, h, hturn, hen, Config.srcN, Config.srcW, Config.srcH]
  · simp only [AtConverterStep, hs] at h
    by_cases hlast : s.convIdx + 1 = Config.srcN
    · simp only [AtConverterStep, ht, if_pos hlast, if_pos (And.intro hturn hen)]
      omega
    · simp only [AtConverterStep, ht, if_neg hlast, if_pos (And.intro hturn hen)]
      omega
  · rw [if_neg hno, Nat.add_zero]
    simpa only [AtConverterStep, hstate, hidx] using h

theorem atConverterStep_zero {s : State} (hw : s.convState = .waitDrain) (h0 : s.convIdx = 0) :
    AtConverterStep 0 s := by
  simp [AtConverterStep, hw, h0]

theorem AtConverterStep.idle_iff {k : Nat} {s : State} (h : AtConverterStep k s) :
    s.convState = .idle ↔ k = 1 + Config.srcN := by
  unfold AtConverterStep at h
  split at h
  · next hs => exact iff_of_false (by simp [hs]) (by omega)
  · next hs => exact iff_of_false (by simp [hs]) (by omega)
  · next hs => exact iff_of_true hs h.2

theorem AtConverterStep.idle_convIdx {k : Nat} {s : State} (h : AtConverterStep k s) (hs : s.convState = .idle) :
    s.convIdx = Config.srcN := by
  simp only [AtConverterStep, hs] at h
  exact h.1

theorem statusWord_idle {s : State} (hs : s.convState = .idle) : (statusWord s).getLsbD 0 = false := by
  rw [statusWord_getLsbD]
  simp [statusBits, convBusyFlag, hs]

/-- Turns in a row with the drain over and host memory answering end the conversion (R133). -/
theorem run_conversion {s : State} {rest : List Event} (hw : s.convState = .waitDrain) (h0 : s.convIdx = 0)
    (hh : s.readHung = false) (hd : s.drainBusy = false)
    (hin : s.inputs = List.replicate (1 + Config.srcN) .convTurn ++ rest)
    (hm : ∀ i < Config.srcN, ∀ j < 4, (pixelByte s s.convBase i j).isSome = true) :
    (∀ k, k ≤ Config.srcN → ∃ u, run k s = .next u ∧ u.convState ≠ .idle) ∧
      ∃ t, run (1 + Config.srcN) s = .next t ∧
        t = { s with inputs := rest, convState := .idle, convIdx := Config.srcN, bb := t.bb } := by
  obtain ⟨last, hlast⟩ : ∃ k, Config.srcN = k + 1 := ⟨19199, rfl⟩
  rw [hlast, Nat.add_comm, List.replicate_succ, List.cons_append] at hin
  have hstep := step_interlock hin hw hd
  obtain ⟨hbefore, t, hrun, ht⟩ := run_convTurns last (rest := rest)
    (s := (s.withInputs (List.replicate (last + 1) .convTurn ++ rest)).withConv .converting s.convIdx s.convBase)
    rfl hh (by rw [withConv_convIdx, h0, hlast, Nat.zero_add]) rfl hm
  refine ⟨fun k hk => ?_, t, ?_, ht⟩
  · cases k with
    | zero => exact ⟨s, rfl, by simp [hw]⟩
    | succ k =>
      obtain ⟨u, hu, huc⟩ := hbefore k (by omega)
      exact ⟨u, (run_step hstep).trans hu, by simp [huc]⟩
  · rw [hlast, Nat.add_comm]
    exact (run_step hstep).trans hrun

/-- From IDLE to IDLE no event but a reset touches the index (R32). -/
theorem EventResult.idle_keeps_convIdx {s t : State} {e : Event} (h : EventResult s e t) (he : e ≠ .reset)
    (hs : s.convState = .idle) (ht : t.convState = .idle) : t.convIdx = s.convIdx := by
  cases h with
  | reset => exact absurd rfl he
  | hostStore _ _ | mapMemory _ _ => rfl
  | readLost => rcases loseRead_cases s with ⟨-, h⟩ | ⟨-, h⟩ <;> simp [h]
  | turn =>
    have hstay : convTurn s = s := by rw [convTurn, hs]
    rw [hstay]
  | command _ hcmd =>
    rcases hcmd with ⟨c, rfl⟩ | rfl | ⟨b, rfl⟩
    · exact raiseCmdError_convIdx s c
    · rcases acceptConvert_cases s with ⟨-, h⟩ | ⟨hbusy, -⟩
      · rw [h] at ht
        cases ht
      · exact absurd hs hbusy
    · rw [acceptSetBacklight_frame]
      rfl
  | access ha =>
    cases ha with
    | ack _ =>
      rw [acknowledge_frame]
      rfl
    | _ => rfl

/-- Settles O32: the count of the converter's steps is kept over the run, and IDLE is reached at 1 + SRC_N. -/
theorem conversionTakesOnePlusSrcNTurns : Obligations.ConversionTakesOnePlusSrcNTurns := by
  refine ⟨fun s t n hw h0 hok hbusy hrun => ?_, fun s rest hw h0 hh hd hin hm => ?_,
    fun s t e rest hin he hs hst ht => ?_⟩
  · have hat : AtConverterStep (0 + converterSteps n s) t :=
      run_keeps (ok := (· ≠ .reset)) (fun _ => id) step_keeps_atConverterStep (atConverterStep_zero hw h0) hok hbusy
        hrun
    rw [Nat.zero_add] at hat
    exact ⟨hat.idle_iff, fun ht => ⟨hat.idle_convIdx ht, statusWord_idle ht⟩⟩
  · obtain ⟨hbusy, t, hrun, ht⟩ := run_conversion hw h0 hh hd hin hm
    exact ⟨hbusy, t, hrun, ht, statusWord_idle (ht ▸ rfl)⟩
  · rw [step_cons hin] at hst
    exact (runEvent_cases hst).idle_keeps_convIdx he hs ht

/-! ## What a conversion has written -/

/-- A step whose event avoids the framebuffer at `base` leaves its bytes alone (R61, R134). -/
theorem step_keeps_pixelByte {s t : State} {e : Event} {rest : List Event} {base : Word} (hin : s.inputs = e :: rest)
    (he : avoidsFramebuffer base e) (hst : step s = .next t) {i j : Nat} (hi : i < Config.srcN) (hj : j < 4) :
    pixelByte t base i j = pixelByte s base i j := by
  have havoid := fun addr bytes hevent k hk => he addr bytes hevent k hk i hi j hj
  match e with
  | .hostStore addr bytes =>
    rw [step_cons hin, runEvent, Host.Outcome.next.injEq] at hst
    exact hst ▸ memByte_memStore_of_avoid bytes s.hostMem addr _ (havoid addr bytes (.inl rfl))
  | .mapMemory addr bytes =>
    rw [step_cons hin, runEvent, Host.Outcome.next.injEq] at hst
    exact hst ▸ memByte_memMap_of_avoid bytes s.hostMem addr _ (havoid addr bytes (.inr rfl))
  | .request _ | .convTurn | .readLost | .reset =>
    rw [pixelByte, pixelByte, step_keeps_hostMem hin (by simp) hst]

/-- What an event leaves of the image and the index: all of it, or one more pixel is converted (R132). -/
inductive ImageResult (s t : State) : Prop
  | same (hidx : t.convIdx = s.convIdx) (hbb : ∀ c, bbRead t c = bbRead s c)
  | pixel (r g b p : Byte) (hlt : s.convIdx < Config.srcN) (hread : pixelRead s = some [r, g, b, p])
      (hidx : t.convIdx = s.convIdx + 1)
      (hbb : ∀ c, bbRead t c =
        if c ∈ destCells s.hrep (pixelX s.convIdx) (pixelY s.convIdx) then pack r g b else bbRead s c)

theorem convTurn_imageResult (s : State) :
    (convTurn s).convBase = s.convBase ∧ ImageResult s (convTurn s) := by
  rcases convTurn_cases s with h | ⟨-, -, h⟩ | ⟨-, -, hlt, r, g, b, p, hread, h⟩ | ⟨-, -, -, -, h⟩ <;> rw [h]
  · exact ⟨rfl, .same rfl fun _ => rfl⟩
  · exact ⟨rfl, .same rfl fun _ => rfl⟩
  · exact ⟨rfl, .pixel r g b p hlt hread rfl fun c => bbRead_withBb_bbWrite (pixelDone s) _ _ c⟩
  · exact ⟨rfl, .same rfl fun _ => rfl⟩

/-- While the unit is not IDLE, no event but a reset moves `conv_base`, and none but a turn touches the image. -/
theorem EventResult.imageResult {s t : State} {e : Event} (h : EventResult s e t) (he : e ≠ .reset)
    (hc : s.convState ≠ .idle) : t.convBase = s.convBase ∧ ImageResult s t := by
  cases h with
  | reset => exact absurd rfl he
  | hostStore _ _ | mapMemory _ _ => exact ⟨rfl, .same rfl fun _ => rfl⟩
  | readLost =>
    rcases loseRead_cases s with ⟨-, h⟩ | ⟨-, h⟩ <;> rw [h] <;> exact ⟨rfl, .same rfl fun _ => rfl⟩
  | turn => exact convTurn_imageResult s
  | command _ hcmd =>
    rcases hcmd with ⟨c, rfl⟩ | rfl | ⟨b, rfl⟩
    · exact ⟨by simp, .same (by simp) (bbRead_congr (by simp) (by simp))⟩
    · rcases acceptConvert_cases s with ⟨hidle, -⟩ | ⟨-, h⟩
      · exact absurd hidle hc
      · exact ⟨by simp [h], .same (by simp [h]) (bbRead_congr (by simp [h]) (by simp [h]))⟩
    · rw [acceptSetBacklight_frame]
      exact ⟨rfl, .same rfl fun _ => rfl⟩
  | access ha =>
    cases ha with
    | ack _ =>
      rw [acknowledge_frame]
      exact ⟨rfl, .same rfl fun _ => rfl⟩
    | _ => exact ⟨rfl, .same rfl fun _ => rfl⟩

theorem step_imageResult {s t : State} {e : Event} {rest : List Event} (hin : s.inputs = e :: rest) (he : e ≠ .reset)
    (hc : s.convState ≠ .idle) (hst : step s = .next t) : t.convBase = s.convBase ∧ ImageResult s t := by
  obtain ⟨hbase, himage⟩ := (runEvent_cases ((step_cons hin).symm.trans hst)).imageResult he hc
  refine ⟨hbase, ?_⟩
  cases himage with
  | same hidx hbb => exact .same hidx hbb
  | pixel r g b p hlt hread hidx hbb => exact .pixel r g b p hlt hread hidx hbb

/-- Pixel i's cells hold the pack of its three bytes in the framebuffer at `base` of `s` (R132, R134). -/
def PixelConverted (s : State) (base : Word) (h : Hrep) (i : Nat) (u : State) : Prop :=
  ∃ r g b, pixelByte s base i 0 = some r ∧ pixelByte s base i 1 = some g ∧ pixelByte s base i 2 = some b ∧
    ∀ c ∈ destCells h (pixelX i) (pixelY i), bbRead u c = pack r g b

/-- `u` stands in the conversion begun in `s`: on the same framebuffer, with the pixels before the index converted. -/
structure ConversionUnderway (s u : State) : Prop where
  base : u.convBase = s.convBase
  hrep : u.hrep = s.hrep
  bytes : ∀ i < Config.srcN, ∀ j < 4, pixelByte u s.convBase i j = pixelByte s s.convBase i j
  converted : ∀ i < u.convIdx, PixelConverted s s.convBase s.hrep i u

theorem step_keeps_conversionUnderway {s u v : State} {e : Event} {rest : List Event} (h : ConversionUnderway s u)
    (hc : u.convState ≠ .idle) (hin : u.inputs = e :: rest) (he : e ≠ .reset) (hav : avoidsFramebuffer s.convBase e)
    (hst : step u = .next v) : ConversionUnderway s v := by
  obtain ⟨hrep, -, -⟩ := step_converter hin he hst hc
  obtain ⟨hbase, himage⟩ := step_imageResult hin he hc hst
  refine ⟨hbase.trans h.base, hrep.trans h.hrep, fun i hi j hj =>
    (step_keeps_pixelByte hin hav hst hi hj).trans (h.bytes i hi j hj), fun i hi => ?_⟩
  cases himage with
  | same hidx hbb =>
    obtain ⟨r, g, b, hr, hg, hb, hcells⟩ := h.converted i (hidx ▸ hi)
    exact ⟨r, g, b, hr, hg, hb, fun c hc => (hbb c).trans (hcells c hc)⟩
  | pixel r g b p hlt hread hidx hbb =>
    rw [h.hrep] at hbb
    by_cases hcur : i = u.convIdx
    · subst hcur
      obtain ⟨hr, hg, hb, -⟩ := (memRead_pixel ..).1 hread
      rw [h.base, h.bytes _ hlt _ (by decide)] at hr hg hb
      exact ⟨r, g, b, hr, hg, hb, fun c hc => (hbb c).trans (if_pos hc)⟩
    · obtain ⟨r', g', b', hr, hg, hb, hcells⟩ := h.converted i (by omega)
      refine ⟨r', g', b', hr, hg, hb, fun c hc => ?_⟩
      have hother : c ∉ destCells s.hrep (pixelX u.convIdx) (pixelY u.convIdx) := fun hmem =>
        hcur (eq_of_mem_destCells hc hmem)
      exact (hbb c).trans ((if_neg hother).trans (hcells c hc))

theorem conversionUnderway_start {s : State} (h0 : s.convIdx = 0) : ConversionUnderway s s :=
  ⟨rfl, rfl, fun _ _ _ _ => rfl, fun _ hi => absurd (h0 ▸ hi) (Nat.not_lt_zero _)⟩

/-- A run of `n` steps from WAIT_DRAIN at index 0 to the first IDLE state, without a reset and without an event that
touches the framebuffer (R134). -/
structure ConversionRun (n : Nat) (s t : State) : Prop where
  wait : s.convState = .waitDrain
  start : s.convIdx = 0
  undisturbed : ∀ e ∈ s.inputs.take n, e ≠ .reset ∧ avoidsFramebuffer s.convBase e
  busy : ∀ k < n, ∀ u, run k s = .next u → u.convState ≠ .idle
  runs : run n s = .next t
  done : t.convState = .idle

theorem ConversionRun.converted {n : Nat} {s t : State} (h : ConversionRun n s t) :
    ∀ i < Config.srcN, PixelConverted s s.convBase s.hrep i t := by
  obtain ⟨hat, hunderway⟩ :=
    run_keeps (P := fun k u => AtConverterStep k u ∧ ConversionUnderway s u)
      (ok := fun e => e ≠ .reset ∧ avoidsFramebuffer s.convBase e) (fun _ hok => hok.1)
      (fun ⟨hat, hunderway⟩ hc hin ⟨hreset, hav⟩ hst =>
        ⟨step_keeps_atConverterStep hat hc hin hreset hst,
          step_keeps_conversionUnderway hunderway hc hin hreset hav hst⟩)
      ⟨atConverterStep_zero h.wait h.start, conversionUnderway_start h.start⟩ h.undisturbed h.busy h.runs
  rw [← hat.idle_convIdx h.done]
  exact hunderway.converted

/-- The pixel a cell of the back-buffer belongs to (R125). -/
def cellPixel (h : Hrep) (c : Nat) : Nat := c / Config.dstW h / 2 * 160 + c % Config.dstW h / h.val

theorem cellPixel_lt {h : Hrep} {c : Nat} (hc : c < Config.dstN h) : cellPixel h c < Config.srcN := by
  have hx := destColumn_lt h c
  have hy := (destRow_lt_iff h c).2 hc
  simp only [cellPixel, Config.srcN, Config.srcW, Config.srcH]
  omega

theorem mem_destCells_cellPixel (h : Hrep) (c : Nat) :
    c ∈ destCells h (pixelX (cellPixel h c)) (pixelY (cellPixel h c)) := by
  obtain ⟨hX, hY⟩ := pixelXY_rowMajor (c / Config.dstW h / 2) (destColumn_lt h c)
  rw [cellPixel, hX, hY]
  exact mem_destCells_inverse h c

/-- After a conversion a cell reads as the pack of its pixel's bytes (R134). -/
theorem ConversionRun.bbRead_eq_pack {n : Nat} {s t : State} (h : ConversionRun n s t) {c : Nat}
    (hc : c < Config.dstN s.hrep) :
    ∃ r g b, pixelByte s s.convBase (cellPixel s.hrep c) 0 = some r ∧
      pixelByte s s.convBase (cellPixel s.hrep c) 1 = some g ∧
      pixelByte s s.convBase (cellPixel s.hrep c) 2 = some b ∧ bbRead t c = pack r g b := by
  obtain ⟨r, g, b, hr, hg, hb, hcells⟩ := h.converted _ (cellPixel_lt hc)
  exact ⟨r, g, b, hr, hg, hb, hcells c (mem_destCells_cellPixel s.hrep c)⟩

/-- Settles O33: the invariant of the run says it of every pixel, and each cell is a cell of its pixel. -/
theorem conversionResultOfEveryInterleaving : Obligations.ConversionResultOfEveryInterleaving := by
  rintro s t n hw h0 hok hbusy hrun hdone c x y a hc rfl rfl rfl
  have hconv : ConversionRun n s t := ⟨hw, h0, hok, hbusy, hrun, hdone⟩
  obtain ⟨r, g, b, hr, hg, hb, hcell⟩ := hconv.bbRead_eq_pack (hc.trans_eq (dstN_eq _).symm)
  rw [pixelByte_eq] at hr hg hb
  exact ⟨r, g, b, hr, hg, hb, hcell⟩

/-- Settles O34: both images are the pack of the same bytes. -/
theorem conversionForgetsTheOldImage : Obligations.ConversionForgetsTheOldImage := by
  intro s s' t t' n n' hw hw' h0 h0' hbase hhrep hbytes hok hok' hbusy hbusy' hrun hrun' hdone hdone' c hc
  have hconv : ConversionRun n s t := ⟨hw, h0, hok, hbusy, hrun, hdone⟩
  have hconv' : ConversionRun n' s' t' := ⟨hw', h0', hbase ▸ hok', hbusy', hrun', hdone'⟩
  rw [← dstN_eq] at hc
  obtain ⟨r, g, b, hr, hg, hb, hcell⟩ := hconv.bbRead_eq_pack hc
  obtain ⟨r', g', b', hr', hg', hb', hcell'⟩ := hconv'.bbRead_eq_pack (hhrep ▸ hc)
  rw [hbase, hhrep, hbytes _ (cellPixel_lt hc) _ (by decide)] at hr' hg' hb'
  rw [hcell, hcell', Option.some.inj (hr'.symm.trans hr), Option.some.inj (hg'.symm.trans hg),
    Option.some.inj (hb'.symm.trans hb)]

end Sys2Proof.Machine
end

section
/-! SUPPORT. The gamma table (41_backlight.md R152, R153): where neighbours are equal, its order and its zeros. -/

namespace Sys2Proof.Machine

/-- R153, entry by entry: the neighbours that are equal, and a rise at every other. -/
theorem gammaLut_add_one : ∀ a : Byte, a ≠ 255#8 →
    if (a + 1).toNat ∈ [1, 2, 3, 5] then gammaLut (a + 1) = gammaLut a
    else (gammaLut a).toNat < (gammaLut (a + 1)).toNat := by
  decide

theorem gammaLut_neighbour_cases {a b : Byte} (h : b.toNat = a.toNat + 1) :
    (b.toNat ∈ [1, 2, 3, 5] ∧ gammaLut b = gammaLut a) ∨
      (b.toNat ∉ [1, 2, 3, 5] ∧ (gammaLut a).toNat < (gammaLut b).toNat) := by
  have hne : a ≠ 255#8 := by bv_omega
  obtain rfl : b = a + 1 := by bv_omega
  have hnext := gammaLut_add_one a hne
  split at hnext
  · exact .inl ⟨‹_›, hnext⟩
  · exact .inr ⟨‹_›, hnext⟩

theorem gammaLut_neighbour_eq_iff {a b : Byte} (h : b.toNat = a.toNat + 1) :
    gammaLut b = gammaLut a ↔ b.toNat = 1 ∨ b.toNat = 2 ∨ b.toNat = 3 ∨ b.toNat = 5 := by
  have hmem : b.toNat ∈ [1, 2, 3, 5] ↔ b.toNat = 1 ∨ b.toNat = 2 ∨ b.toNat = 3 ∨ b.toNat = 5 := by simp
  rw [← hmem]
  rcases gammaLut_neighbour_cases h with ⟨hb, heq⟩ | ⟨hb, hlt⟩
  · exact iff_of_true heq hb
  · exact iff_of_false (fun heq => hlt.ne' (congrArg BitVec.toNat heq)) hb

theorem gammaLut_monotone : Monotone fun i : Fin 256 => (gammaLut (.ofFin i)).toNat :=
  Fin.monotone_iff_le_succ.2 fun i => by
    rcases gammaLut_neighbour_cases (a := .ofFin i.castSucc) (b := .ofFin i.succ) rfl with ⟨-, heq⟩ | ⟨-, hlt⟩
    · exact (congrArg BitVec.toNat heq).ge
    · exact hlt.le

/-- The table never falls (R153). -/
theorem gammaLut_toNat_le {a b : Byte} (h : a.toNat ≤ b.toNat) : (gammaLut a).toNat ≤ (gammaLut b).toNat :=
  gammaLut_monotone h

/-- The table is 0 up to entry 3, and from entry 4 on at least 1 (R153). -/
theorem gammaLut_eq_zero_iff (b : Byte) : gammaLut b = 0#16 ↔ b.toNat ≤ 3 := by
  rw [← BitVec.toNat_inj, BitVec.toNat_zero]
  constructor
  · intro h
    by_contra! hb
    have h4 : 1 ≤ (gammaLut b).toNat := gammaLut_toNat_le (a := 4#8) hb
    omega
  · intro hb
    have h3 : (gammaLut b).toNat ≤ 0 := gammaLut_toNat_le (b := 3#8) hb
    omega

end Sys2Proof.Machine
end

section
/-! SUPPORT. The backlight unit's steps (41_backlight.md R154 to R166): SET_BACKLIGHT case by case, the two ends of a
sleep transition, and the way to sleep and back. -/

namespace Sys2Proof.Machine

/-! ## One lemma per case -/

section backlight
variable {s : State} {b : Byte}

/-- R156. -/
theorem acceptSetBacklight_awake_on (hi : s.blState = .idle) (hd : s.displaySleep = false) (hb : b ≠ 0#8) :
    acceptSetBacklight b s = (s.withBrightness b).withDuty (gammaLut b) := by
  simpa [hi, hd, hb] using acceptSetBacklight_cases b s

/-- R157, R158. -/
theorem acceptSetBacklight_awake_off (hi : s.blState = .idle) (hd : s.displaySleep = false) :
    acceptSetBacklight 0#8 s = ((s.withBrightness 0#8).withDuty 0#16).withRequest s.sleepEntryKind .sleepWait := by
  simpa [hi, hd] using acceptSetBacklight_cases 0#8 s

/-- R159. -/
theorem acceptSetBacklight_asleep_off (hi : s.blState = .idle) (hd : s.displaySleep = true) :
    acceptSetBacklight 0#8 s = (s.withBrightness 0#8).withDuty 0#16 := by
  simpa [hi, hd] using acceptSetBacklight_cases 0#8 s

/-- R160. -/
theorem acceptSetBacklight_asleep_on (hi : s.blState = .idle) (hd : s.displaySleep = true) (hb : b ≠ 0#8) :
    acceptSetBacklight b s = ((s.withBrightness b).withPending b).withRequest .leaveSleep .wakeWait := by
  simpa [hi, hd, hb] using acceptSetBacklight_cases b s

/-- R161. -/
theorem acknowledge_of_sleepWait (hw : s.blState = .sleepWait) : acknowledge s = s.withAck true := by
  simpa [hw] using acknowledge_cases s

/-- R162. -/
theorem acknowledge_of_wakeWait (hw : s.blState = .wakeWait) :
    acknowledge s = (s.withAck false).withDuty (gammaLut s.blPending) := by
  simpa [hw] using acknowledge_cases s

end backlight

/-- Settles O13: the four acceptance lemmas. -/
theorem setBacklightCases : Obligations.SetBacklightCases := by
  refine fun s b hi => ⟨fun hd hb => ?_, fun hd hb => ?_, fun hd hb => ?_, fun hd hb => ?_⟩
  · exact congrArg _ (acceptSetBacklight_awake_on hi hd hb)
  · subst hb
    exact congrArg _ (acceptSetBacklight_awake_off hi hd)
  · subst hb
    exact congrArg _ (acceptSetBacklight_asleep_off hi hd)
  · exact congrArg _ (acceptSetBacklight_asleep_on hi hd hb)

/-- Settles O14: the acknowledge in each waiting state, and R45's duty in SLEEP_WAIT. -/
theorem acknowledgeEndsTheTransition : Obligations.AcknowledgeEndsTheTransition := by
  refine ⟨fun s hreq hw => ?_, fun s hinv hw => ?_, fun s hreq hw => ?_⟩
  · exact exec_slpAck_eq_next.2 ⟨hreq, acknowledge_of_sleepWait hw⟩
  · obtain ⟨-, hduty, -⟩ := hinv.sleep_wait hw
    exact hduty
  · exact exec_slpAck_eq_next.2 ⟨hreq, acknowledge_of_wakeWait hw⟩

/-- Settles O39: the table's lemmas, and SET_BACKLIGHT's duty where its entry is 0. -/
theorem gammaTableProperties : Obligations.GammaTableProperties := by
  refine ⟨gammaLut_zero, by decide, fun _ _ => gammaLut_toNat_le, gammaLut_eq_zero_iff,
    fun _ _ => gammaLut_neighbour_eq_iff, fun s b hi hd hlow hhigh => ?_⟩
  have hb : b ≠ 0#8 := by bv_omega
  have haccept := acceptSetBacklight_awake_on hi hd hb
  rw [(gammaLut_eq_zero_iff b).2 hhigh] at haccept
  exact congrArg _ haccept

/-! ## To sleep and back -/

/-- One more step at the end of a run. -/
theorem run_then_step {n : Nat} {s t u : State} (hrun : run n s = .next t) (hstep : step t = .next u) :
    run (n + 1) s = .next u := by
  induction n generalizing s with
  | zero =>
    obtain rfl := Host.Outcome.next.inj hrun
    exact run_step hstep
  | succ n ih =>
    obtain ⟨v, hv, hrest⟩ := run_succ hrun
    exact (run_step hv).trans (ih hrest)

/-- A SET_BACKLIGHT word as a step (R90, R154). -/
theorem step_setBacklight {s : State} {w : Word} {rest : List Event} (b : Byte)
    (hin : s.inputs = .request (.cmd w) :: rest) (hw : decodeCmd w = .ok (.setBacklight b)) :
    step s = .next (acceptSetBacklight b (s.withInputs rest)) := by
  rw [step_cons hin, runEvent, runRequest, decode, hw]
  rfl

/-- An acknowledge of a request that is out, as a step (R202). -/
theorem step_slpAck {s : State} {rest : List Event} (hin : s.inputs = .request (.port .slpAck) :: rest)
    (hreq : s.slpReq = true) : step s = .next (acknowledge (s.withInputs rest)) :=
  (step_cons hin).trans (exec_slpAck_eq_next.2 ⟨hreq, rfl⟩)

/-- Settles O16: the five steps one after the other, each by its case's lemma. -/
theorem sleepRoundTrip : Obligations.SleepRoundTrip := by
  intro s rest hi hd hreq hin
  have hfull : gammaLut 255#8 = 65535#16 := by decide
  have hoff := run_then_step (n := 0) rfl <|
    (step_setBacklight 0#8 hin rfl).trans (congrArg _ (acceptSetBacklight_awake_off hi hd))
  have hslept := run_then_step hoff <| (step_slpAck rfl rfl).trans (congrArg _ (acknowledge_of_sleepWait rfl))
  have hon := run_then_step hslept <|
    (step_setBacklight 255#8 rfl rfl).trans (congrArg _ (acceptSetBacklight_asleep_on rfl rfl (by decide)))
  have hwoken := run_then_step hon <| (step_slpAck rfl rfl).trans (congrArg _ (acknowledge_of_wakeWait rfl))
  have hagain := run_then_step hwoken <|
    (step_setBacklight 255#8 rfl rfl).trans (congrArg _ (acceptSetBacklight_awake_on rfl rfl (by decide)))
  exact ⟨_, _, _, _, _, hoff, hslept, hon, hwoken, hagain, ⟨rfl, rfl, hd, rfl⟩, ⟨rfl, rfl, rfl⟩, ⟨rfl, rfl, rfl, rfl⟩,
    ⟨rfl, rfl, hfull, rfl⟩, ⟨rfl, rfl, hfull, rfl⟩⟩

end Sys2Proof.Machine
end

section
/-! SUPPORT. The host's register accesses (42_register_access.md R194 to R199, R203, R204, R206): the word each read
returns, as a number or by the field it shows, and what the next read returns after a command or a write. -/

namespace Sys2Proof.Machine

/-- A request that is no instruction, as a step (R200, R206, R212). -/
theorem step_of_decode_error {s : State} {r : Request} {rest : List Event} {e : DecodeError}
    (hin : s.inputs = .request r :: rest) (hd : decode s.hrep r = .error e) :
    step s = takeDecodeError e (s.withInputs rest) := by
  rw [step_cons hin, runEvent, runRequest, withInputs_hrep, hd]

/-- Settles O6: neither access is decoded, and the step refuses it. -/
theorem unsupportedAccessIsRefused : Obligations.UnsupportedAccessIsRefused := by
  intro s rest width offset d hu
  obtain ⟨hread, hwrite⟩ := decode_unsupported s.hrep d hu
  constructor
  · exact step_of_decode_error (s := s.withInputs _) rfl hread
  · exact step_of_decode_error (s := s.withInputs _) rfl hwrite

/-! ## ERR -/

theorem exec_rdErr {s : State} {w : Word} (h : errWord s = w) : exec .rdErr s = .next (s.withRdata w) :=
  h ▸ rfl

/-- ERR as a number: OVF in bit 8, CODE in the low bits (R25, R194). -/
theorem errWord_toNat (s : State) :
    (errWord s).toNat = (if s.errOvf then 256 else 0) + (errCodeBits s.errCode).toNat := by
  rw [errWord, BitVec.toNat_setWidth_of_le (by decide), toNat_append_eq, toNat_append_eq]
  cases s.errOvf <;> rfl

/-- The first error since the last clear is kept, and a later one sets OVF alone (R212). -/
theorem raiseCmdError_raiseCmdError {s : State} {first : ErrCode} (later : ErrCode) (h : s.errCode = .noError)
    (hf : first ≠ .noError) : raiseCmdError later (raiseCmdError first s) = s.withErr first true := by
  have hfirst : raiseCmdError first s = s.withErr first s.errOvf := if_pos h
  rw [hfirst]
  exact if_neg hf

/-- Settles O18: the word as a number, and the two rejections one after the other. -/
theorem errReadsCodeAndOverflow : Obligations.ErrReadsCodeAndOverflow := by
  refine ⟨fun s => ⟨errWord s, exec_rdErr rfl, ?_⟩, fun s w1 w2 code h hw1 hw2 => ?_⟩
  · rw [errWord_toNat]
    cases s.errCode <;> rfl
  · have hsecond := exec_wrCmd_of_error hw2 (raiseCmdError .illegalOpcode s)
    rw [raiseCmdError_raiseCmdError code h (by decide)] at hsecond
    exact ⟨_, _, exec_wrCmd_of_error hw1 s, hsecond, exec_rdErr (BitVec.eq_of_toNat_eq (errWord_toNat _))⟩

/-! ## FB_BASE -/

theorem exec_rdFbBase {s : State} {w : Word} (h : fbBaseWord s = w) : exec .rdFbBase s = .next (s.withRdata w) :=
  h ▸ rfl

theorem exec_wrFbBase (d : Word) (s : State) : exec (.wrFbBase d) s = .next (s.withFbAddr (d.extractLsb' 2 30)) := rfl

/-- FB_BASE holds a written word rounded down to a multiple of 4 (R26, R197). -/
theorem fbBaseWord_withFbAddr_toNat (s : State) (d : Word) :
    (fbBaseWord (s.withFbAddr (d.extractLsb' 2 30))).toNat = d.toNat - d.toNat % 4 := by
  have hd : d.toNat < 2 ^ 32 := d.isLt
  rw [fbBaseWord, withFbAddr_fbAddr, toNat_append_eq, BitVec.extractLsb'_toNat, Nat.shiftRight_eq_div_pow,
    BitVec.toNat_ofNat]
  omega

/-- Settles O20: the write and the read-back, and CONVERT's snapshot of the word read back. -/
theorem framebufferBaseHoldsBits31To2 : Obligations.FramebufferBaseHoldsBits31To2 :=
  ⟨fun _ => exec_rdFbBase rfl, fun s d => ⟨_, exec_wrFbBase d s, rfl, _, exec_rdFbBase rfl,
    fbBaseWord_withFbAddr_toNat s d, fun hi => ⟨_, exec_convert_of_idle hi, rfl⟩⟩⟩

/-! ## CONFIG -/

theorem exec_rdConfig {s : State} {w : Word} (h : configWord s = w) : exec .rdConfig s = .next (s.withRdata w) :=
  h ▸ rfl

theorem exec_wrConfig (d : Word) (s : State) :
    exec (.wrConfig d) s = .next (s.withSleepEntryKind (sleepKindOfBit (d.getLsbD 0))) := rfl

/-- CONFIG by the kind it holds (R27, R198). -/
theorem configWord_eq_ite (s : State) :
    configWord s = if s.sleepEntryKind = .enterSleep then 1#32 else 0#32 := by
  rw [configWord]
  cases s.sleepEntryKind <;> rfl

/-- CONFIG holds bit 0 of a written word (R199). -/
theorem configWord_withSleepEntryKind (s : State) (d : Word) :
    configWord (s.withSleepEntryKind (sleepKindOfBit (d.getLsbD 0))) = BitVec.ofNat 32 (d.toNat % 2) := by
  rw [configWord, withSleepEntryKind_sleepEntryKind, BitVec.getLsbD, Nat.testBit_zero]
  rcases Nat.mod_two_eq_zero_or_one d.toNat with h | h <;> rw [h] <;> rfl

/-- Settles O21: the word by the kind it holds, and bit 0 of the write read back. -/
theorem configHoldsBitZero : Obligations.ConfigHoldsBitZero :=
  ⟨fun s => exec_rdConfig (configWord_eq_ite s), exec_rdConfig rfl, fun s d =>
    ⟨_, exec_wrConfig d s, rfl, exec_rdConfig (configWord_withSleepEntryKind s d)⟩⟩

/-! ## BRIGHTNESS and DUTY -/

theorem exec_rdBrightness {s : State} {w : Word} (h : brightnessWord s = w) :
    exec .rdBrightness s = .next (s.withRdata w) :=
  h ▸ rfl

theorem exec_rdDuty {s : State} {w : Word} (h : dutyWord s = w) : exec .rdDuty s = .next (s.withRdata w) :=
  h ▸ rfl

theorem exec_setBacklight (b : Byte) (s : State) : exec (.setBacklight b) s = .next (acceptSetBacklight b s) := rfl

/-- Settles O22: the two words, and both after an accepted SET_BACKLIGHT by the lemmas of its acceptance. -/
theorem brightnessAndDutyRegisters : Obligations.BrightnessAndDutyRegisters := by
  refine ⟨fun _ => exec_rdBrightness rfl, fun _ => exec_rdDuty rfl, fun _ _ => ⟨rfl, rfl⟩,
    fun s b hi => ⟨_, exec_setBacklight b s, exec_rdBrightness ?_⟩,
    fun s hi hd => ⟨_, exec_setBacklight _ s, exec_rdDuty ?_⟩⟩
  · obtain ⟨hbright, -⟩ := acceptSetBacklight_of_idle b hi
    exact congrArg (BitVec.setWidth 32) hbright
  · have hfull : gammaLut 255#8 = 0xFFFF#16 := by decide
    rw [acceptSetBacklight_awake_on hi hd (by decide), dutyWord, withDuty_duty, hfull]
    rfl

end Sys2Proof.Machine
end

section
/-! SUPPORT. Command errors (60_exceptions.md R212, R213): the code each command raises, and which steps can change
ERR. -/

namespace Sys2Proof.Machine

/-! ## Recording an error -/

/-- Recording an error as the whole next state: CODE where it was 0, OVF otherwise (R212). -/
theorem raiseCmdError_eq_ite (code : ErrCode) (s : State) :
    raiseCmdError code s = if s.errCode = .noError then { s with errCode := code } else { s with errOvf := true } :=
  rfl

theorem raiseCmdError_of_clear (code : ErrCode) {s : State} (h : s.errCode = .noError) :
    raiseCmdError code s = s.withErr code s.errOvf :=
  if_pos h

/-- Recording an error keeps a code that is set, and OVF is only ever set (R212). -/
theorem raiseCmdError_keeps_err (code : ErrCode) {s : State} (h : s.errCode ≠ .noError) :
    (raiseCmdError code s).errCode = s.errCode ∧ (s.errOvf = true → (raiseCmdError code s).errOvf = true) := by
  have hkept : raiseCmdError code s = s.withErr s.errCode true := if_neg h
  rw [hkept]
  exact ⟨rfl, fun _ => rfl⟩

/-! ## A command's busy check -/

theorem exec_convert (s : State) : exec .convert s = .next (acceptConvert s) := rfl

/-- CONVERT of a busy converter is rejected (R130). -/
theorem acceptConvert_of_busy {s : State} (hs : s.convState ≠ .idle) : acceptConvert s = raiseCmdError .convBusy s :=
  if_neg hs

/-- SET_BACKLIGHT of a busy backlight unit is rejected (R154). -/
theorem acceptSetBacklight_of_busy (b : Byte) {s : State} (hs : s.blState ≠ .idle) :
    acceptSetBacklight b s = raiseCmdError .blBusy s :=
  if_neg hs

/-- What the busy check of a command raises: its unit's busy code, or 0 where the unit is idle (R213). -/
def busyError (s : State) : Cmd → ErrCode
  | .convert => if s.convState = .idle then .noError else .convBusy
  | .setBacklight _ => if s.blState = .idle then .noError else .blBusy

/-- ERR after a command reaches its unit: as it was where the command is accepted, else the busy code recorded. -/
theorem acceptCmd_err (c : Cmd) (s : State) :
    (busyError s c = .noError ∧ (acceptCmd c s).errCode = s.errCode ∧ (acceptCmd c s).errOvf = s.errOvf) ∨
      acceptCmd c s = raiseCmdError (busyError s c) s := by
  cases c with
  | convert =>
    rcases acceptConvert_cases s with ⟨hidle, h⟩ | ⟨hbusy, h⟩
    · exact .inl ⟨if_pos hidle, by simp [acceptCmd, h]⟩
    · exact .inr (by simp [acceptCmd, busyError, h, hbusy])
  | setBacklight b =>
    rcases acceptSetBacklight_cases b s with
      ⟨hbusy, h⟩ | ⟨hidle, -, -, h⟩ | ⟨hidle, -, -, h⟩ | ⟨hidle, -, -, h⟩ | ⟨hidle, -, -, h⟩
    · exact .inr (by simp [acceptCmd, busyError, h, hbusy])
    all_goals exact .inl ⟨if_pos hidle, by simp [acceptCmd, h]⟩

/-- With CODE 0, a command's busy check alone says what CODE becomes (R213). -/
theorem acceptCmd_err_of_clear (c : Cmd) {s : State} (h : s.errCode = .noError) :
    (acceptCmd c s).errOvf = s.errOvf ∧ (acceptCmd c s).errCode = busyError s c := by
  rcases acceptCmd_err c s with ⟨hnone, hcode, hovf⟩ | hraised
  · exact ⟨hovf, by rw [hcode, h, hnone]⟩
  · rw [hraised, raiseCmdError_of_clear _ h]
    exact ⟨rfl, rfl⟩

/-! ## Which steps can change ERR -/

theorem acceptCmd_keeps_err (c : Cmd) {s : State} (h : s.errCode ≠ .noError) :
    (acceptCmd c s).errCode = s.errCode ∧ (s.errOvf = true → (acceptCmd c s).errOvf = true) := by
  rcases acceptCmd_err c s with ⟨-, hcode, hovf⟩ | hraised
  · exact ⟨hcode, hovf.trans⟩
  · rw [hraised]
    exact raiseCmdError_keeps_err _ h

/-- No command clears ERR (R212). -/
theorem CommandResult.keeps_err {s t : State} (ht : CommandResult s t) (h : s.errCode ≠ .noError) :
    t.errCode = s.errCode ∧ (s.errOvf = true → t.errOvf = true) := by
  rcases ht with ⟨code, rfl⟩ | rfl | ⟨b, rfl⟩
  · exact raiseCmdError_keeps_err code h
  · exact acceptCmd_keeps_err .convert h
  · exact acceptCmd_keeps_err (.setBacklight b) h

/-- An access that does not write ERR leaves it alone. -/
theorem AccessResult.err_eq {s t : State} {e : Event} (ht : AccessResult s e t) (hw : ¬ eventWrites .err e) :
    t.errCode = s.errCode ∧ t.errOvf = s.errOvf := by
  cases ht with
  | clear d _ => exact absurd ⟨d, rfl⟩ hw
  | ack _ => rcases acknowledge_cases s with ⟨-, h⟩ | ⟨-, h⟩ | ⟨-, h⟩ <;> rw [h] <;> exact ⟨rfl, rfl⟩
  | read | ignored | base | config | drainRead | drainStart | drainEnd => exact ⟨rfl, rfl⟩

/-- But for a reset and a write to ERR, only a command can change ERR. -/
theorem EventResult.command_or_err_eq {s t : State} {e : Event} (ht : EventResult s e t) (he : e ≠ .reset)
    (hw : ¬ eventWrites .err e) :
    (isCommand e ∧ CommandResult s t) ∨ (t.errCode = s.errCode ∧ t.errOvf = s.errOvf) := by
  cases ht with
  | reset => exact absurd rfl he
  | command hcmd ht => exact .inl ⟨hcmd, ht⟩
  | access ht => exact .inr (ht.err_eq hw)
  | hostStore | mapMemory => exact .inr ⟨rfl, rfl⟩
  | readLost => rcases loseRead_cases s with ⟨-, h⟩ | ⟨-, h⟩ <;> rw [h] <;> exact .inr ⟨rfl, rfl⟩
  | turn =>
    rw [convTurn_frame]
    exact .inr ⟨rfl, rfl⟩

theorem step_keeps_err {s t : State} {e : Event} {rest : List Event} (hin : s.inputs = e :: rest)
    (hst : step s = .next t) (he : e ≠ .reset) (hw : ¬ eventWrites .err e) (h : s.errCode ≠ .noError) :
    t.errCode = s.errCode ∧ (s.errOvf = true → t.errOvf = true) := by
  rw [step_cons hin] at hst
  rcases (runEvent_cases hst).command_or_err_eq he hw with ⟨-, ht⟩ | ⟨hcode, hovf⟩
  · exact ht.keeps_err h
  · exact ⟨hcode, hovf.trans⟩

/-- Settles O9: the three rejections are one recording of an error, and only a command's recording reaches ERR. -/
theorem commandErrorIsRecordedInErrOnly : Obligations.CommandErrorIsRecordedInErrOnly := by
  refine ⟨fun s w code hd => ?_, fun s hs => ?_, fun s b hs => ?_, fun _ _ _ _ => step_keeps_err⟩
  · rw [exec_wrCmd_of_error hd, raiseCmdError_eq_ite]
  · rw [exec_convert, acceptConvert_of_busy hs, raiseCmdError_eq_ite]
  · rw [exec_setBacklight, acceptSetBacklight_of_busy b hs, raiseCmdError_eq_ite]

/-! ## The order of the causes -/

/-- The one code a write to CMD raises: its word's decode error, else the busy check's (R213). -/
def cmdWriteError (s : State) (w : Word) : ErrCode :=
  match decodeCmd w with
  | .error code => code
  | .ok c => busyError s c

theorem writeCmd_err_of_clear (w : Word) {s : State} (h : s.errCode = .noError) :
    (writeCmd w s).errOvf = s.errOvf ∧ (writeCmd w s).errCode = cmdWriteError s w := by
  unfold cmdWriteError
  match hd : decodeCmd w with
  | .error code =>
    rw [writeCmd_of_error hd, raiseCmdError_of_clear code h]
    exact ⟨rfl, rfl⟩
  | .ok c =>
    rw [writeCmd_of_ok hd]
    exact acceptCmd_err_of_clear c h

/-- R213's order by the word's fields: opcode, reserved bits, then the busy check of the unit commanded. -/
theorem cmdWriteError_eq_ite (s : State) (w : Word) :
    cmdWriteError s w =
      if cmdOp w ≠ 0x01#8 ∧ cmdOp w ≠ 0x02#8 then .illegalOpcode
      else if cmdOp w = 0x01#8 ∧ ¬ (cmdRsv w = 0#16 ∧ cmdArg w = 0#8) then .reservedBits
      else if cmdOp w = 0x02#8 ∧ cmdRsv w ≠ 0#16 then .reservedBits
      else if cmdOp w = 0x01#8 ∧ s.convState ≠ .idle then .convBusy
      else if cmdOp w = 0x02#8 ∧ s.blState ≠ .idle then .blBusy
      else .noError := by
  unfold cmdWriteError
  rcases decodeCmd_cases w with
    ⟨hop, hlow, hd⟩ | ⟨hop, hlow, hd⟩ | ⟨hop, hrsv, hd⟩ | ⟨hop, hrsv, hd⟩ | ⟨hop1, hop2, hd⟩
  · simp [hd, hop, hlow, busyError]
  · simp [hd, hop, hlow]
  · simp [hd, hop, hrsv, busyError]
  · simp [hd, hop, hrsv]
  · rw [if_pos ⟨hop1, hop2⟩, hd]

/-- Settles O10: the code raised by the fields of the word, which are its quotients and remainders. -/
theorem errorPriorityOfOneCmdWrite : Obligations.ErrorPriorityOfOneCmdWrite := by
  intro s w h
  obtain ⟨hovf, hcode⟩ := writeCmd_err_of_clear w h
  refine ⟨_, exec_wrCmd w s, hovf, hcode.trans ?_⟩
  simp only [cmdWriteError_eq_ite, ne_eq, cmdOp_eq_iff, ↓cmdRsv_cmdArg_eq_zero_iff, cmdRsv_eq_zero_iff]
  rfl

end Sys2Proof.Machine
end

section
/-! SUPPORT. Reset (70_reset_and_hazards.md R240), and a drain that does not end (R247): while it runs, a converter that
is not CONVERTING does not start, and no cell changes. -/

namespace Sys2Proof.Machine

/-! ## Reset -/

theorem step_reset {s : State} {rest : List Event} (hin : s.inputs = .reset :: rest) :
    step s = .next (resetMachine (s.withInputs rest)) :=
  step_cons hin

/-- After a reset every cell is a free value, one of the new reset count (R48). -/
theorem bbRead_resetMachine (s : State) (c : Nat) :
    bbRead (resetMachine s) c = Config.bbUnspecified (s.resetCount + 1) c :=
  rfl

/-- Settles O42: the reset step's state, field by field, and its cells. -/
theorem resetPutsEveryPieceOfState : Obligations.ResetPutsEveryPieceOfState := fun s rest hin =>
  ⟨resetMachine (s.withInputs rest), step_reset hin, rfl, rfl, rfl, rfl, rfl, rfl, rfl, rfl, rfl, rfl, rfl, rfl, rfl,
    rfl, rfl, rfl, bbRead_resetMachine (s.withInputs rest)⟩

/-! ## The events to come -/

/-- No event changes the events to come after it. -/
theorem EventResult.inputs_eq {s t : State} {e : Event} (ht : EventResult s e t) : t.inputs = s.inputs := by
  cases ht with
  | reset | hostStore | mapMemory => rfl
  | readLost => rcases loseRead_cases s with ⟨-, h⟩ | ⟨-, h⟩ <;> simp [h]
  | turn =>
    rw [convTurn_frame]
    rfl
  | command _ hcmd =>
    rcases hcmd with ⟨code, rfl⟩ | rfl | ⟨b, rfl⟩
    · exact raiseCmdError_inputs s code
    · rw [acceptConvert_frame]
      rfl
    · rw [acceptSetBacklight_frame]
      rfl
  | access ha =>
    cases ha with
    | ack =>
      rw [acknowledge_frame]
      rfl
    | read | ignored | clear | base | config | drainRead | drainStart | drainEnd => rfl

/-- What every step on an event that meets `ok` keeps, a run over such events keeps. -/
theorem run_keeps_of_events {P : State → Prop} {ok : Event → Prop}
    (hinputs : ∀ {u rest}, P u → P (u.withInputs rest)) (hkeep : ∀ {u v e}, P u → ok e → EventResult u e v → P v)
    {n : Nat} {s t : State} (h : P s) (hok : ∀ e ∈ s.inputs.take n, ok e) (hrun : run n s = .next t) : P t := by
  induction n generalizing s with
  | zero =>
    rw [run, Host.Outcome.next.injEq] at hrun
    exact hrun ▸ h
  | succ n ih =>
    obtain ⟨u, hu, hrest⟩ := run_succ hrun
    match hin : s.inputs with
    | [] =>
      rw [step_nil hin, Host.Outcome.next.injEq] at hu
      subst hu
      exact ih h (by simp [hin]) hrest
    | e :: rest =>
      rw [hin, List.take_succ_cons, List.forall_mem_cons] at hok
      obtain ⟨hoke, hokrest⟩ := hok
      rw [step_cons hin] at hu
      have hevent := runEvent_cases hu
      have hrestok : ∀ e ∈ u.inputs.take n, ok e := by simpa [hevent.inputs_eq] using hokrest
      exact ih (hkeep (hinputs h) hoke hevent) hrestok hrest

/-! ## A drain that does not end -/

/-- `t` comes after `s` in a drain that has held the converter since: the back-buffer, its cells' free values included,
is that of `s`. -/
structure HeldByDrainSince (s t : State) : Prop where
  busy : t.drainBusy = true
  not_converting : t.convState ≠ .converting
  waiting : s.convState = .waitDrain → t.convState = .waitDrain
  bb_eq : t.bb = s.bb
  resetCount_eq : t.resetCount = s.resetCount

/-- What leaves the drain running and the converter and its cells alone keeps the converter held. -/
theorem HeldByDrainSince.frame {s u v : State} (h : HeldByDrainSince s u) (hbusy : v.drainBusy = true)
    (hstate : v.convState = u.convState) (hbb : v.bb = u.bb) (hcount : v.resetCount = u.resetCount) :
    HeldByDrainSince s v where
  busy := hbusy
  not_converting := hstate ▸ h.not_converting
  waiting hs := hstate.trans (h.waiting hs)
  bb_eq := hbb.trans h.bb_eq
  resetCount_eq := hcount.trans h.resetCount_eq

/-- A turn while a drain runs is no step of a converter that is not CONVERTING (R131). -/
theorem convTurn_of_drain {s : State} (hd : s.drainBusy = true) (hc : s.convState ≠ .converting) : convTurn s = s := by
  rcases convTurn_cases s with h | ⟨-, hfree, -⟩ | ⟨hconv, -⟩ | ⟨hconv, -⟩
  · exact h
  · rw [hd] at hfree
    cases hfree
  · exact absurd hconv hc
  · exact absurd hconv hc

/-- Outside CONVERTING there is no read to lose (R70). -/
theorem loseRead_of_not_converting {s : State} (hc : s.convState ≠ .converting) : loseRead s = s := by
  rcases loseRead_cases s with ⟨hdue, -⟩ | ⟨-, h⟩
  · exact absurd ((pixelDue_iff s).1 hdue).1 hc
  · exact h

theorem raiseCmdError_keeps_heldByDrain (code : ErrCode) {s u : State} (h : HeldByDrainSince s u) :
    HeldByDrainSince s (raiseCmdError code u) := by
  rw [raiseCmdError_frame]
  exact h.frame h.busy rfl rfl rfl

/-- CONVERT while a drain runs starts no conversion: it is held in WAIT_DRAIN, or rejected (R130, R247). -/
theorem acceptConvert_keeps_heldByDrain {s u : State} (h : HeldByDrainSince s u) :
    HeldByDrainSince s (acceptConvert u) := by
  rcases acceptConvert_cases u with ⟨-, hv⟩ | ⟨-, hv⟩ <;> rw [hv]
  · exact ⟨h.busy, ConvState.noConfusion, fun _ => rfl, h.bb_eq, h.resetCount_eq⟩
  · exact raiseCmdError_keeps_heldByDrain _ h

theorem CommandResult.keeps_heldByDrain {s u v : State} (hv : CommandResult u v) (h : HeldByDrainSince s u) :
    HeldByDrainSince s v := by
  rcases hv with ⟨code, rfl⟩ | rfl | ⟨b, rfl⟩
  · exact raiseCmdError_keeps_heldByDrain code h
  · exact acceptConvert_keeps_heldByDrain h
  · rw [acceptSetBacklight_frame]
    exact h.frame h.busy rfl rfl rfl

/-- Of the accesses and port events only DRAIN_END ends a drain (R201). -/
theorem AccessResult.keeps_heldByDrain {s u v : State} {e : Event} (hv : AccessResult u e v)
    (hfall : e ≠ .request (.port .drainBusyFall)) (h : HeldByDrainSince s u) : HeldByDrainSince s v := by
  cases hv with
  | drainEnd => exact absurd rfl hfall
  | drainStart => exact h.frame rfl rfl rfl rfl
  | ignored => exact h
  | ack =>
    rw [acknowledge_frame]
    exact h.frame h.busy rfl rfl rfl
  | read | clear | base | config | drainRead => exact h.frame h.busy rfl rfl rfl

/-- No event but the drain's end or a reset lets a held converter start. -/
theorem EventResult.keeps_heldByDrain {s u v : State} {e : Event} (hv : EventResult u e v) (hreset : e ≠ .reset)
    (hfall : e ≠ .request (.port .drainBusyFall)) (h : HeldByDrainSince s u) : HeldByDrainSince s v := by
  cases hv with
  | reset => exact absurd rfl hreset
  | hostStore | mapMemory => exact h.frame h.busy rfl rfl rfl
  | readLost => exact (loseRead_of_not_converting h.not_converting).symm ▸ h
  | turn => exact (convTurn_of_drain h.busy h.not_converting).symm ▸ h
  | command _ hcmd => exact hcmd.keeps_heldByDrain h
  | access ha => exact ha.keeps_heldByDrain hfall h

/-- Settles O50: CONVERT is accepted by an idle unit, and the hold of a running drain is kept over the run. -/
theorem drainHoldsTheBackBuffer : Obligations.DrainHoldsTheBackBuffer := by
  refine ⟨fun s hs _ => ⟨_, exec_convert_of_idle hs, rfl, rfl⟩, fun s t n hd hc hok hrun => ?_⟩
  have hheld : HeldByDrainSince s t :=
    run_keeps_of_events (fun h => h.frame h.busy rfl rfl rfl) (fun h hok hv => hv.keeps_heldByDrain hok.1 hok.2 h)
      ⟨hd, hc, id, rfl, rfl⟩ hok hrun
  exact ⟨hheld.busy, hheld.not_converting, hheld.waiting, bbRead_congr hheld.bb_eq hheld.resetCount_eq⟩

end Sys2Proof.Machine
end

section
/-! SUPPORT. Decoding and encoding agree (30_encoding.md sections 1 and 2): every instruction is a command, a register's
read or write row, or a port event, and each kind is decoded from its own request. -/

namespace Sys2Proof.Machine

/-! ## From the instruction to its request and back -/

theorem decode_cmd_of_ok (h : Hrep) {w : Word} {c : Cmd} (hd : decodeCmd w = .ok c) :
    decode h (.cmd w) = .ok (cmdInstr c) := by
  rw [decode, hd]

theorem decode_encodeCmd (h : Hrep) (c : Cmd) : decode h (.cmd (encodeCmd c)) = .ok (cmdInstr c) :=
  decode_cmd_of_ok h (decodeCmd_eq_ok_iff.2 rfl)

/-- Settles O4: a case split over the instruction's kind. -/
theorem decodeOfEncodeIsTheInstruction : Obligations.DecodeOfEncodeIsTheInstruction := by
  intro h i hwf
  cases i with
  | convert => exact decode_encodeCmd h .convert
  | setBacklight b => exact decode_encodeCmd h (.setBacklight b)
  | rdCmd | rdStatus | rdErr | rdFbBase | rdConfig | rdBrightness | rdDuty | rdRsvd => exact decode_readOf h _
  | wrCmd d | wrStatus d | wrErr d | wrFbBase d | wrConfig d | wrBrightness d | wrDuty d | wrRsvd d =>
    exact decode_writeOf h _ d
  | drainRd i => exact if_pos (of_decide_eq_true hwf)
  | drainStart | drainEnd | slpAck => rfl

/-! ## From the request to its instruction and back -/

theorem cmdInstr_wellFormed_encode (h : Hrep) (c : Cmd) :
    (cmdInstr c).wellFormed h = true ∧ encode (cmdInstr c) = .cmd (encodeCmd c) := by
  cases c <;> exact ⟨rfl, rfl⟩

theorem readInstr_wellFormed_encode (h : Hrep) (g : Reg) :
    (readInstr g).wellFormed h = true ∧ encode (readInstr g) = readOf g := by
  cases g <;> exact ⟨rfl, rfl⟩

theorem writeInstr_wellFormed_encode (h : Hrep) (g : Reg) (d : Word) :
    (writeInstr d g).wellFormed h = true ∧ encode (writeInstr d g) = writeOf g d := by
  cases g <;> exact ⟨rfl, rfl⟩

/-- A word that decodes to a command is that command's encoding (R93, R94). -/
theorem decode_cmd_eq_ok {h : Hrep} {w : Word} {i : Instr} (hd : decode h (.cmd w) = .ok i) :
    ∃ c, w = encodeCmd c ∧ i = cmdInstr c := by
  rw [decode] at hd
  split at hd
  · next c hc => exact ⟨c, decodeCmd_eq_ok_iff.1 hc, (Except.ok.inj hd).symm⟩
  · cases hd

theorem decodePort_wellFormed_encode {h : Hrep} {p : PortEvent} {i : Instr} (hd : decodePort h p = .ok i) :
    i.wellFormed h = true ∧ encode i = .port p := by
  cases p with
  | drainRead k =>
    rw [decodePort] at hd
    split at hd
    · next hk =>
      obtain rfl := Except.ok.inj hd
      exact ⟨decide_eq_true hk, rfl⟩
    · cases hd
  | drainBusyRise | drainBusyFall | slpAck =>
    obtain rfl := Except.ok.inj hd
    exact ⟨rfl, rfl⟩

/-- Settles O5: a case split over the request's format. -/
theorem encodeOfDecodeIsTheRequest : Obligations.EncodeOfDecodeIsTheRequest := by
  intro h r i hd
  match r with
  | .cmd w =>
    obtain ⟨c, rfl, rfl⟩ := decode_cmd_eq_ok hd
    exact cmdInstr_wellFormed_encode h c
  | .mmio a =>
    rcases decodeAccess_ok hd with ⟨g, hr, rfl⟩ | ⟨g, d, hr, rfl⟩ <;> rw [hr]
    · exact readInstr_wellFormed_encode h g
    · exact writeInstr_wellFormed_encode h g d
  | .port p => exact decodePort_wellFormed_encode hd

end Sys2Proof.Machine
end

section
/-! SUPPORT. A request as a step (00_scope.md R11, 30_encoding.md R90): what it decodes to is run, and when it is
refused (42_register_access.md R200, R202, R206). -/

namespace Sys2Proof.Machine

theorem runRequest_of_ok {r : Request} {s : State} {i : Instr} (hd : decode s.hrep r = .ok i) :
    runRequest r s = exec i s := by
  rw [runRequest, hd]

theorem runRequest_of_error {r : Request} {s : State} {e : DecodeError} (hd : decode s.hrep r = .error e) :
    runRequest r s = takeDecodeError e s := by
  rw [runRequest, hd]

theorem step_request {s : State} {r : Request} {rest : List Event} (hin : s.inputs = .request r :: rest) :
    step s = runRequest r (s.withInputs rest) :=
  step_cons hin

/-- Settles O7: the step runs the request, and the request runs what it decodes to. -/
theorem stepRunsTheDecodedInstruction : Obligations.StepRunsTheDecodedInstruction :=
  fun _ _ _ _ hin hd => (step_request hin).trans (runRequest_of_ok hd)

theorem decode_cmd_of_error (h : Hrep) {w : Word} {code : ErrCode} (hd : decodeCmd w = .error code) :
    decode h (.cmd w) = .error (.command code) := by
  rw [decode, hd]

/-- A command word does what a write of it to CMD does (R90, R190). -/
theorem runRequest_cmd (w : Word) (s : State) : runRequest (.cmd w) s = .next (writeCmd w s) := by
  match hd : decodeCmd w with
  | .ok c => rw [runRequest_of_ok (decode_cmd_of_ok s.hrep hd), exec_cmdInstr, writeCmd_of_ok hd]
  | .error code =>
    rw [runRequest_of_error (decode_cmd_of_error s.hrep hd), writeCmd_of_error hd]
    rfl

theorem runRequest_writeCmd (w : Word) (s : State) : runRequest (writeOf .cmd w) s = .next (writeCmd w s) :=
  runRequest_of_ok (decode_writeOf s.hrep .cmd w)

/-- Settles O8: both steps are the write of the word to CMD. -/
theorem commandFormatIsTheWriteToCmd : Obligations.CommandFormatIsTheWriteToCmd := fun s rest w =>
  calc step (s.withInputs (.request (.cmd w) :: rest))
    _ = .next (writeCmd w (s.withInputs rest)) := (step_request rfl).trans (runRequest_cmd w _)
    _ = step (s.withInputs (.request (writeOf .cmd w) :: rest)) :=
      ((step_request (s := s.withInputs _) rfl).trans (runRequest_writeCmd w (s.withInputs rest))).symm

/-! ## Which requests are refused -/

theorem exec_drainRd_of_lt {i : Nat} {s : State} (hi : i < Config.dstN s.hrep) :
    exec (.drainRd i) s = .next (s.withRdData (bbRead s i)) :=
  if_pos hi

theorem exec_drainRd_of_le {i : Nat} {s : State} (hi : Config.dstN s.hrep ≤ i) :
    exec (.drainRd i) s = .refused .drainIndexOutOfRange :=
  if_neg (Nat.not_lt.2 hi)

theorem exec_slpAck_of_no_request {s : State} (h : s.slpReq = false) :
    exec .slpAck s = .refused .ackWithoutRequest := by
  simp [exec, execSlpAck, h]

/-- Settles O15: the acknowledge's one check. -/
theorem acknowledgeNeedsARequest : Obligations.AcknowledgeNeedsARequest :=
  fun _ => exec_slpAck_of_no_request

/-- Settles O24: DST_N is 38400 × HREP. -/
theorem drainReadReturnsTheCell : Obligations.DrainReadReturnsTheCell := fun s _ =>
  ⟨fun hi => exec_drainRd_of_lt (hi.trans_eq (dstN_eq s.hrep).symm),
    fun hi => exec_drainRd_of_le ((dstN_eq s.hrep).trans_le hi)⟩

/-- Every aligned offset is a register's (R22, R66). -/
theorem exists_regOffset {offset : BitVec 5} (hoff : offset.toNat % 4 = 0) : ∃ g, offset = regOffset g := by
  match hat : regAt offset with
  | some g => exact ⟨g, regAt_eq_some.1 hat⟩
  | none => exact absurd hoff ((regAt_eq_none offset).1 hat)

/-- A supported access is a register's read or write; any other is not decoded (R66, R206). -/
theorem access_cases (h : Hrep) (a : Access) :
    (a.supported = true ∧ ((∃ g, .mmio a = readOf g) ∨ ∃ g d, .mmio a = writeOf g d)) ∨
      (a.supported = false ∧ decode h (.mmio a) = .error .unsupportedAccess) := by
  match a with
  | .read width offset =>
    by_cases hok : width = 4 ∧ offset.toNat % 4 = 0
    · obtain ⟨rfl, hoff⟩ := hok
      obtain ⟨g, rfl⟩ := exists_regOffset hoff
      exact .inl ⟨by simp [Access.supported, hoff], .inl ⟨g, rfl⟩⟩
    · exact .inr ⟨by simpa [Access.supported] using hok, (decode_unsupported h 0#32 (not_and_or.1 hok)).1⟩
  | .write width offset d =>
    by_cases hok : width = 4 ∧ offset.toNat % 4 = 0
    · obtain ⟨rfl, hoff⟩ := hok
      obtain ⟨g, rfl⟩ := exists_regOffset hoff
      exact .inl ⟨by simp [Access.supported, hoff], .inr ⟨g, d, rfl⟩⟩
    · exact .inr ⟨by simpa [Access.supported] using hok, (decode_unsupported h d (not_and_or.1 hok)).2⟩

theorem exec_writeInstr (g : Reg) (d : Word) (s : State) : ∃ t, exec (writeInstr d g) s = .next t := by
  cases g <;> exact ⟨_, rfl⟩

/-- A register access answers exactly where it is supported (R206). -/
theorem runRequest_mmio_cases (a : Access) (s : State) :
    (a.supported = true ∧ ∃ t, runRequest (.mmio a) s = .next t) ∨
      (a.supported = false ∧ runRequest (.mmio a) s = .refused .unsupportedAccess) := by
  rcases access_cases s.hrep a with ⟨hsup, ⟨g, hr⟩ | ⟨g, d, hr⟩⟩ | ⟨hsup, hd⟩
  · obtain ⟨w, hw⟩ := exec_readInstr g s
    exact .inl ⟨hsup, _, hr ▸ (runRequest_of_ok (decode_readOf s.hrep g)).trans hw⟩
  · obtain ⟨t, ht⟩ := exec_writeInstr g d s
    exact .inl ⟨hsup, t, hr ▸ (runRequest_of_ok (decode_writeOf s.hrep g d)).trans ht⟩
  · exact .inr ⟨hsup, runRequest_of_error hd⟩

theorem decode_drainRead_of_le {h : Hrep} {i : Nat} (hi : 38400 * h.val ≤ i) :
    decode h (.port (.drainRead i)) = .error .drainIndexOutOfRange :=
  if_neg (Nat.not_lt.2 ((dstN_eq h).trans_le hi))

/-- A drain read answers exactly where its index is in range (R200). -/
theorem runRequest_drainRead_cases (i : Nat) (s : State) :
    (i < 38400 * s.hrep.val ∧ ∃ t, runRequest (.port (.drainRead i)) s = .next t) ∨
      (38400 * s.hrep.val ≤ i ∧ runRequest (.port (.drainRead i)) s = .refused .drainIndexOutOfRange) := by
  by_cases hi : i < 38400 * s.hrep.val
  · have hexec := exec_drainRd_of_lt (hi.trans_eq (dstN_eq s.hrep).symm)
    exact .inl ⟨hi, _, (runRequest_of_ok (decode_drainRead hi)).trans hexec⟩
  · exact .inr ⟨Nat.not_lt.1 hi, runRequest_of_error (decode_drainRead_of_le (Nat.not_lt.1 hi))⟩

/-- An acknowledge answers exactly where a request is out (R202). -/
theorem runRequest_slpAck_cases (s : State) :
    (s.slpReq = true ∧ ∃ t, runRequest (.port .slpAck) s = .next t) ∨
      (s.slpReq = false ∧ runRequest (.port .slpAck) s = .refused .ackWithoutRequest) := by
  match hreq : s.slpReq with
  | true => exact .inl ⟨rfl, _, exec_slpAck_eq_next.2 ⟨hreq, rfl⟩⟩
  | false => exact .inr ⟨rfl, exec_slpAck_of_no_request hreq⟩

theorem refused_eq_refused_iff {q r : Refusal} : (.refused q : Result) = .refused r ↔ r = q := by
  rw [Host.Outcome.refused.injEq, eq_comm]

/-- Settles O52: Fault has no constructor, and each kind of event answers or is refused by its lemma. -/
theorem whenAStepIsRefused : Obligations.WhenAStepIsRefused := by
  refine fun s e rest hin => ⟨nofun, fun r => ?_⟩
  rw [step_cons hin]
  match e with
  | .convTurn | .hostStore _ _ | .mapMemory _ _ | .readLost | .reset => simp [runEvent]
  | .request (.port .drainBusyRise) | .request (.port .drainBusyFall) =>
    simp [runEvent, runRequest, decode, decodePort, exec, execDrainStart, execDrainEnd]
  | .request (.cmd w) => simp [runEvent, runRequest_cmd]
  | .request (.mmio a) =>
    rcases runRequest_mmio_cases a (s.withInputs rest) with ⟨hsup, t, h⟩ | ⟨hsup, h⟩
    · simp [runEvent, h, hsup]
    · simp [runEvent, h, hsup, refused_eq_refused_iff, -Host.Outcome.refused.injEq]
  | .request (.port (.drainRead i)) =>
    rcases runRequest_drainRead_cases i (s.withInputs rest) with ⟨hi, t, h⟩ | ⟨hi, h⟩ <;> rw [withInputs_hrep] at hi
    · simp [runEvent, h, hi]
    · simp [runEvent, h, hi, refused_eq_refused_iff, -Host.Outcome.refused.injEq]
  | .request (.port .slpAck) =>
    rcases runRequest_slpAck_cases (s.withInputs rest) with ⟨hreq, t, h⟩ | ⟨hreq, h⟩ <;> rw [withInputs_slpReq] at hreq
    · simp [runEvent, h, hreq]
    · simp [runEvent, h, hreq, refused_eq_refused_iff, -Host.Outcome.refused.injEq]

end Sys2Proof.Machine
end

section
/-! SUPPORT. Accepted commands (40_converter.md R130, 42_register_access.md R190), and the host's and the drain agent's
writes of one field (42_register_access.md R195, R201). -/

namespace Sys2Proof.Machine

/-! ## Accepted commands -/

/-- SET_BACKLIGHT is accepted by an idle unit: OVF is as it was (R154). -/
theorem acceptSetBacklight_errOvf_of_idle (b : Byte) {s : State} (hs : s.blState = .idle) :
    (acceptSetBacklight b s).errOvf = s.errOvf := by
  rcases acceptSetBacklight_cases b s with
    ⟨hbusy, -⟩ | ⟨-, -, -, h⟩ | ⟨-, -, -, h⟩ | ⟨-, -, -, h⟩ | ⟨-, -, -, h⟩
  · exact absurd hs hbusy
  all_goals
    rw [h]
    rfl

/-- Settles O11: WR_CMD of an encoded command is the command, and its unit is idle. -/
theorem writeCmdRunsTheCommand : Obligations.WriteCmdRunsTheCommand := by
  refine ⟨fun s hs => ?_, fun s b hs => ⟨acceptSetBacklight b s, ?_, exec_setBacklight b s, ?_⟩⟩
  · exact (exec_wrCmd_of_ok (c := .convert) (decodeCmd_eq_ok_iff.2 rfl) s).trans (exec_convert_of_idle hs)
  · exact exec_wrCmd_of_ok (c := .setBacklight b) (decodeCmd_eq_ok_iff.2 (encodeCmd_setBacklight b).symm) s
  · obtain ⟨hbright, hcode⟩ := acceptSetBacklight_of_idle b hs
    exact ⟨hbright, hcode, acceptSetBacklight_errOvf_of_idle b hs⟩

/-- In WAIT_DRAIN STATUS shows CONV_BUSY and CONV_WAIT (R24). -/
theorem statusWord_waitDrain {s : State} (hs : s.convState = .waitDrain) :
    (statusWord s).getLsbD 0 = true ∧ (statusWord s).getLsbD 1 = true := by
  simp only [statusWord_getLsbD]
  simp [statusBits, convBusyFlag, convWaitFlag, hs]

/-- Settles O12: the acceptance of CONVERT and what STATUS shows of it; the example's base is the word of its ADDR. -/
theorem convertIsAcceptedWhenIdle : Obligations.ConvertIsAcceptedWhenIdle := by
  refine ⟨fun s hs => ⟨_, exec_convert_of_idle hs, rfl, statusWord_waitDrain rfl⟩,
    fun s hs haddr => ⟨_, exec_convert_of_idle hs, ?_, rfl, rfl⟩⟩
  rw [withConv_convBase, fbBaseWord, haddr]
  rfl

/-! ## ERR and the drain agent's level -/

theorem exec_wrErr (d : Word) (s : State) :
    exec (.wrErr d) s = .next (if d.toNat % 2 = 1 then clearErr s else s) := by
  simp only [exec, execWrErr, bitZero_eq, decide_eq_true_eq]

theorem exec_wrErr_of_set {d : Word} (hd : d.toNat % 2 = 1) (s : State) : exec (.wrErr d) s = .next (clearErr s) := by
  rw [exec_wrErr, if_pos hd]

theorem exec_wrErr_of_clear {d : Word} (hd : d.toNat % 2 = 0) (s : State) : exec (.wrErr d) s = .next s := by
  rw [exec_wrErr, if_neg (by omega)]

/-- With CODE 0 STATUS.ERR is 0 (R24). -/
theorem statusWord_of_noError {s : State} (hs : s.errCode = .noError) : (statusWord s).getLsbD 5 = false := by
  simp only [statusWord_getLsbD]
  simp [statusBits, errFlag, hs]

/-- Settles O19: the write by its bit 0. -/
theorem errClearsByBitZero : Obligations.ErrClearsByBitZero := fun s _ =>
  ⟨fun hd => ⟨exec_wrErr_of_set hd s, statusWord_of_noError rfl⟩, fun hd => exec_wrErr_of_clear hd s⟩

/-- STATUS.DRAIN_BUSY is the level (R24, R39). -/
theorem statusWord_drainBusy (s : State) : (statusWord s).getLsbD 4 = s.drainBusy :=
  statusWord_getLsbD s 4

/-- The end of a drain as a step (R201). -/
theorem step_drainEnd {s : State} {rest : List Event} (hin : s.inputs = .request (.port .drainBusyFall) :: rest) :
    step s = .next ((s.withInputs rest).withDrainBusy false) :=
  step_cons hin

/-- Settles O25: each event writes the level, and after a DRAIN_END the next turn is the interlock step. -/
theorem drainEventsSetTheLevel : Obligations.DrainEventsSetTheLevel := by
  refine ⟨fun s => ⟨rfl, statusWord_drainBusy _⟩, fun s => ⟨rfl, statusWord_drainBusy _⟩, fun s rest hs hin => ?_⟩
  exact ⟨_, run_then_step (run_step (n := 0) (step_drainEnd hin)) (step_interlock rfl hs rfl), rfl⟩

end Sys2Proof.Machine
end

section
/-! SUPPORT. What the state after a reset keeps (70_reset_and_hazards.md R240). -/

namespace Sys2Proof.Machine

/-- Settles O41: the state after reset is that of a reset event but for the reset count, of which the invariants do not
speak. -/
theorem resetMeetsTheInvariants : Obligations.ResetMeetsTheInvariants := fun m busy es h hm =>
  let s : State := { State.reset with hostMem := m, drainBusy := busy, inputs := es, hrep := h }
  (inv_iff s).2 ((inv_iff (resetMachine s)).1 (resetMachine_inv hm))

/-- Settles O43: the reset's record update leaves these fields. -/
theorem resetLeavesWhatIsNotPcbms : Obligations.ResetLeavesWhatIsNotPcbms := fun _ _ hin =>
  ⟨_, step_reset hin, rfl, rfl, rfl, rfl, rfl, rfl⟩

end Sys2Proof.Machine
end

section
/-! SUPPORT. Which events write which state (10_state.md sections 2 to 5): the frame of every event but a reset. -/

namespace Sys2Proof.Machine

/-! ## The events' formats apart -/

variable {g g' : Reg} {d : Word} {p : PortEvent}

@[simp] theorem eventWrites_writeOf : eventWrites g' (.request (writeOf g d)) ↔ g' = g := by
  constructor
  · rintro ⟨d', h⟩
    cases g <;> cases g' <;> simp [writeOf, regOffset] at h ⊢
  · rintro rfl
    exact ⟨d, rfl⟩

@[simp] theorem not_eventWrites_readOf : ¬ eventWrites g' (.request (readOf g)) := nofun
@[simp] theorem not_eventWrites_convTurn : ¬ eventWrites g .convTurn := nofun
@[simp] theorem not_eventWrites_readLost : ¬ eventWrites g .readLost := nofun

@[simp] theorem not_isCommand_readOf : ¬ isCommand (.request (readOf g)) := by
  rintro (⟨w, h⟩ | h)
  · cases h
  · simp at h

@[simp] theorem isCommand_writeOf : isCommand (.request (writeOf g d)) ↔ g = .cmd :=
  (or_iff_right nofun).trans (eventWrites_writeOf.trans eq_comm)

@[simp] theorem not_isCommand_port : ¬ isCommand (.request (.port p)) := by rintro (⟨w, h⟩ | ⟨w, h⟩) <;> cases h
@[simp] theorem not_isCommand_convTurn : ¬ isCommand .convTurn := by rintro (⟨w, h⟩ | ⟨w, h⟩) <;> cases h
@[simp] theorem not_isCommand_readLost : ¬ isCommand .readLost := by rintro (⟨w, h⟩ | ⟨w, h⟩) <;> cases h
@[simp] theorem not_isCommand_reset : ¬ isCommand .reset := by rintro (⟨w, h⟩ | ⟨w, h⟩) <;> cases h

/-! ## What one named event leaves -/

variable {s t : State}

theorem EventResult.reset_eq (h : EventResult s .reset t) : t = resetMachine s := by
  cases h with
  | reset => rfl
  | command he => exact absurd he not_isCommand_reset
  | access ha => cases ha

theorem EventResult.turn_eq (h : EventResult s .convTurn t) : t = convTurn s := by
  cases h with
  | turn => rfl
  | command he => exact absurd he not_isCommand_convTurn
  | access ha => cases ha

theorem EventResult.readLost_eq (h : EventResult s .readLost t) : t = loseRead s := by
  cases h with
  | readLost => rfl
  | command he => exact absurd he not_isCommand_readLost
  | access ha => cases ha

theorem EventResult.command_result {e : Event} (h : EventResult s e t) (he : isCommand e) : CommandResult s t := by
  cases h with
  | command _ ht => exact ht
  | reset => exact absurd he not_isCommand_reset
  | readLost => exact absurd he not_isCommand_readLost
  | turn => exact absurd he not_isCommand_convTurn
  | hostStore | mapMemory => rcases he with ⟨w, h⟩ | ⟨w, h⟩ <;> cases h
  | access ha =>
    cases ha with
    | read => exact absurd he not_isCommand_readOf
    | ignored _ _ hg => exact absurd (isCommand_writeOf.1 he) hg
    | clear | base | config => cases isCommand_writeOf.1 he
    | drainRead | drainStart | drainEnd | ack => exact absurd he not_isCommand_port

/-- A port event is no command. -/
theorem EventResult.port_access (h : EventResult s (.request (.port p)) t) : AccessResult s (.request (.port p)) t := by
  cases h with
  | command he => exact absurd he not_isCommand_port
  | access ha => exact ha

theorem EventResult.ack_eq (h : EventResult s (.request (.port .slpAck)) t) : s.slpReq = true ∧ t = acknowledge s := by
  cases h.port_access with
  | ack hreq => exact ⟨hreq, rfl⟩

theorem EventResult.drainEnd_eq (h : EventResult s (.request (.port .drainBusyFall)) t) :
    t = s.withDrainBusy false := by
  cases h.port_access with
  | drainEnd => rfl

/-! ## The frame of a command -/

/-- `s` with the variables of `u` that a command may write: the two units', but for the image, `readHung` and
`display_sleep`, and ERR. -/
def State.withCommandOf (s u : State) : State :=
  { s with
    convState := u.convState, convIdx := u.convIdx, convBase := u.convBase, brightness := u.brightness, duty := u.duty,
    blState := u.blState, blPending := u.blPending, slpReq := u.slpReq, slpKind := u.slpKind, errCode := u.errCode,
    errOvf := u.errOvf }

theorem CommandResult.frame (h : CommandResult s t) : t = s.withCommandOf t := by
  have hraise (code : ErrCode) : raiseCmdError code s = s.withCommandOf (raiseCmdError code s) := by
    rw [raiseCmdError_frame]
    rfl
  rcases h with ⟨code, rfl⟩ | rfl | ⟨b, rfl⟩
  · exact hraise code
  · rcases acceptConvert_cases s with ⟨-, h⟩ | ⟨-, h⟩ <;> rw [h]
    · rfl
    · exact hraise _
  · rcases acceptSetBacklight_cases b s with
      ⟨-, h⟩ | ⟨-, -, -, h⟩ | ⟨-, -, -, h⟩ | ⟨-, -, -, h⟩ | ⟨-, -, -, h⟩ <;> rw [h]
    · exact hraise _
    all_goals rfl

/-- `s` with the variables of `u` that an acknowledge may write (R161, R162). -/
def State.withAckOf (s u : State) : State :=
  { s with duty := u.duty, displaySleep := u.displaySleep, blState := u.blState, slpReq := u.slpReq }

theorem acknowledge_frame_ack (s : State) : acknowledge s = s.withAckOf (acknowledge s) := by
  rcases acknowledge_cases s with ⟨-, h⟩ | ⟨-, h⟩ | ⟨-, h⟩ <;> rw [h] <;> rfl

/-! ## The writers of each piece of state -/

/-- What an event `e` other than a reset leaves of `s` in `t`, piece by piece of the state. -/
structure OwnWriters (s : State) (e : Event) (t : State) : Prop where
  resetCount : t.resetCount = s.resetCount
  hrep : t.hrep = s.hrep
  readHung : e ≠ .convTurn → e ≠ .readLost → t.readHung = s.readHung
  image : e ≠ .convTurn → t.bb = s.bb
  converter : ¬ isCommand e → e ≠ .convTurn →
    t.convState = s.convState ∧ t.convIdx = s.convIdx ∧ t.convBase = s.convBase
  brightness : ¬ isCommand e → t.brightness = s.brightness ∧ t.blPending = s.blPending ∧ t.slpKind = s.slpKind
  backlight : ¬ isCommand e → e ≠ .request (.port .slpAck) →
    t.duty = s.duty ∧ t.blState = s.blState ∧ t.slpReq = s.slpReq
  displaySleep : e ≠ .request (.port .slpAck) → t.displaySleep = s.displaySleep
  err : ¬ isCommand e → ¬ eventWrites .err e → t.errCode = s.errCode ∧ t.errOvf = s.errOvf
  fbAddr : ¬ eventWrites .fbBase e → t.fbAddr = s.fbAddr
  sleepEntryKind : ¬ eventWrites .config e → t.sleepEntryKind = s.sleepEntryKind
  drainBusy : e ≠ .request (.port .drainBusyRise) → e ≠ .request (.port .drainBusyFall) → t.drainBusy = s.drainBusy
  rdata : (∀ g, e ≠ .request (readOf g)) → t.rdata = s.rdata
  rdData : (∀ i, e ≠ .request (.port (.drainRead i))) → t.rdData = s.rdData

variable {e : Event}

theorem ownWriters_self : OwnWriters s e s := by
  constructor <;> simp

theorem ownWriters_withHostMem (m : Memory) : OwnWriters s e (s.withHostMem m) := by
  constructor <;> simp

theorem ownWriters_convTurn : OwnWriters s .convTurn (convTurn s) := by
  rw [convTurn_frame]
  constructor <;> simp [State.withConverterOf]

theorem ownWriters_loseRead : OwnWriters s .readLost (loseRead s) := by
  rcases loseRead_cases s with ⟨-, h⟩ | ⟨-, h⟩ <;> rw [h]
  · constructor <;> simp
  · exact ownWriters_self

theorem CommandResult.ownWriters (h : CommandResult s t) (he : isCommand e) : OwnWriters s e t := by
  rw [h.frame]
  constructor <;> simp [State.withCommandOf, he]

theorem AccessResult.ownWriters (h : AccessResult s e t) : OwnWriters s e t := by
  cases h with
  | ignored => exact ownWriters_self
  | ack =>
    rw [acknowledge_frame_ack]
    constructor <;> simp [State.withAckOf]
  | read | clear | base | config | drainRead | drainStart | drainEnd => constructor <;> simp [clearErr]

theorem EventResult.ownWriters (h : EventResult s e t) (he : e ≠ .reset) : OwnWriters s e t := by
  cases h with
  | reset => exact absurd rfl he
  | hostStore | mapMemory => exact ownWriters_withHostMem _
  | readLost => exact ownWriters_loseRead
  | turn => exact ownWriters_convTurn
  | command hcmd ht => exact ht.ownWriters hcmd
  | access ha => exact ha.ownWriters

theorem step_ownWriters {rest : List Event} (hin : s.inputs = e :: rest) (he : e ≠ .reset) (hst : step s = .next t) :
    OwnWriters (s.withInputs rest) e t :=
  (runEvent_cases ((step_cons hin).symm.trans hst)).ownWriters he

theorem step_inputs {rest : List Event} (hin : s.inputs = e :: rest) (hst : step s = .next t) : t.inputs = rest :=
  (runEvent_cases ((step_cons hin).symm.trans hst)).inputs_eq

/-- Settles O47: the frame of the event, clause by clause. -/
theorem eachStateHasItsOwnWriters : Obligations.EachStateHasItsOwnWriters := by
  intro s t e rest hin he hst
  have h := step_ownWriters hin he hst
  exact ⟨step_inputs hin hst, h.resetCount, h.hrep, h.readHung,
    fun hturn => bbRead_congr (h.image hturn) h.resetCount, h.converter, h.brightness, h.backlight, h.displaySleep,
    h.err, h.fbAddr, h.sleepEntryKind, h.drainBusy, h.rdata, h.rdData⟩

end Sys2Proof.Machine
end

section
/-! SUPPORT. What the writers of the state say of idle units (70_reset_and_hazards.md R244) and of the drain agent's
contract (R246). -/

namespace Sys2Proof.Machine

variable {s t : State} {e : Event}

/-! ## Idle units -/

theorem convTurn_of_idle (hs : s.convState = .idle) : convTurn s = s := by
  rw [convTurn, hs]

theorem acknowledge_of_idle (hs : s.blState = .idle) : acknowledge s = s := by
  rw [acknowledge, hs]

theorem EventResult.keeps_converter_idle (h : EventResult s e t) (he : ¬ isCommand e) (hs : s.convState = .idle) :
    t.convState = .idle := by
  rcases eq_or_ne e .reset with rfl | hreset
  · rw [h.reset_eq]
    rfl
  rcases eq_or_ne e .convTurn with rfl | hturn
  · rw [h.turn_eq, convTurn_of_idle hs, hs]
  · obtain ⟨hstate, -⟩ := (h.ownWriters hreset).converter he hturn
    exact hstate.trans hs

theorem EventResult.keeps_backlight_idle (h : EventResult s e t) (he : ¬ isCommand e) (hs : s.blState = .idle) :
    t.blState = .idle := by
  rcases eq_or_ne e .reset with rfl | hreset
  · rw [h.reset_eq]
    rfl
  rcases eq_or_ne e (.request (.port .slpAck)) with rfl | hack
  · obtain ⟨-, rfl⟩ := h.ack_eq
    rw [acknowledge_of_idle hs, hs]
  · obtain ⟨-, hstate, -⟩ := (h.ownWriters hreset).backlight he hack
    exact hstate.trans hs

/-- Settles O48: each event that is no command keeps each unit idle, and so does a run of them. -/
theorem onlyCommandsLeaveIdle : Obligations.OnlyCommandsLeaveIdle := fun _ _ _ hok hrun =>
  ⟨fun hs => run_keeps_of_events (P := (·.convState = .idle)) id (fun hu he h => h.keeps_converter_idle he hu) hs hok
      hrun,
    fun hs => run_keeps_of_events (P := (·.blState = .idle)) id (fun hu he h => h.keeps_backlight_idle he hu) hs hok
      hrun⟩

/-! ## The drain agent's contract -/

/-- While no drain runs only a DRAIN_START begins one, and under the contract it finds the converter idle (R246). -/
theorem EventResult.drain_begins (h : EventResult s e t) (hcontract : drainContract s e) (hs : s.drainBusy = false)
    (ht : t.drainBusy = true) : t.convState = .idle := by
  rcases eq_or_ne e .reset with rfl | hreset
  · rw [h.reset_eq]
    rfl
  have hw := h.ownWriters hreset
  rcases eq_or_ne e (.request (.port .drainBusyRise)) with rfl | hrise
  · obtain ⟨hstate, -⟩ := hw.converter not_isCommand_port nofun
    exact hstate.trans (hcontract rfl)
  rcases eq_or_ne e (.request (.port .drainBusyFall)) with rfl | hfall
  · rw [h.drainEnd_eq] at ht
    cases ht
  · rw [hw.drainBusy hrise hfall, hs] at ht
    cases ht

/-- While a drain goes on, a converter that is not CONVERTING does not start (R247). -/
theorem EventResult.drain_goes_on (h : EventResult s e t) (hs : s.drainBusy = true) (hc : s.convState ≠ .converting)
    (ht : t.drainBusy = true) : t.convState ≠ .converting := by
  rcases eq_or_ne e .reset with rfl | hreset
  · rw [h.reset_eq]
    exact ConvState.noConfusion
  rcases eq_or_ne e (.request (.port .drainBusyFall)) with rfl | hfall
  · rw [h.drainEnd_eq] at ht
    cases ht
  · exact (h.keeps_heldByDrain hreset hfall ⟨hs, hc, id, rfl, rfl⟩).not_converting

theorem EventResult.drain_keeps_image (h : EventResult s e t) (hs : s.drainBusy = true) (hc : s.convState ≠ .converting)
    (hreset : e ≠ .reset) (c : Nat) : bbRead t c = bbRead s c := by
  have hw := h.ownWriters hreset
  rcases eq_or_ne e .convTurn with rfl | hturn
  · rw [h.turn_eq, convTurn_of_drain hs hc]
  · exact bbRead_congr (hw.image hturn) hw.resetCount c

/-- Settles O51: by the level before the event, a drain begins or goes on. -/
theorem drainContractProtectsTheImage : Obligations.DrainContractProtectsTheImage := by
  intro s t e rest hin hcontract hquiet hst
  have h : EventResult (s.withInputs rest) e t := runEvent_cases ((step_cons hin).symm.trans hst)
  refine ⟨fun ht => ?_, fun hs hreset => h.drain_keeps_image hs (hquiet hs) hreset⟩
  match hs : s.drainBusy with
  | true => exact h.drain_goes_on hs (hquiet hs) ht
  | false =>
    rw [h.drain_begins hcontract hs ht]
    exact ConvState.noConfusion

end Sys2Proof.Machine
end

section
/-! SUPPORT. Hangs (60_exceptions.md R215, 20_memory.md R70): a converter whose pixel read went unanswered is stuck
until reset, and each other wait ends by its own event alone. -/

namespace Sys2Proof.Machine

variable {s t u v : State} {e : Event}

/-! ## A read that goes unanswered -/

/-- The pixel is read where its four bytes answer, and only there (R70). -/
theorem pixelRead_eq_none_iff : pixelRead s = none ↔ ∃ j < 4, pixelByte s s.convBase s.convIdx j = none := by
  constructor
  · intro hread
    by_contra! hall
    obtain ⟨r, g, b, p, hsome⟩ := memRead_of_answers fun j hj => Option.isSome_iff_ne_none.2 (hall j hj)
    cases hread.symm.trans hsome
  · rintro ⟨j, hj, hsilent⟩
    match hread : pixelRead s with
    | none => rfl
    | some bs =>
      match bs, memRead_length hread with
      | [r, g, b, p], _ =>
        obtain ⟨hr, hg, hb, hp⟩ := (memRead_pixel ..).1 hread
        interval_cases j <;> simp_all

theorem withReadHung_of_hung (hh : s.readHung = true) : s.withReadHung true = s :=
  congrArg s.withReadHung hh.symm

theorem pixelDue_of_hung (hh : s.readHung = true) : pixelDue s = false := by
  simp [pixelDue, hh]

/-- A stuck converter has no step (R215). -/
theorem convTurn_of_hung (hc : s.convState = .converting) (hh : s.readHung = true) : convTurn s = s := by
  simp [convTurn, hc, pixelDue_of_hung hh]

theorem loseRead_of_hung (hh : s.readHung = true) : loseRead s = s := by
  simp [loseRead, pixelDue_of_hung hh]

/-- A turn whose pixel read goes unanswered leaves the unit stuck, and nothing else (R70). -/
theorem convTurn_of_silent (hc : s.convState = .converting) (hi : s.convIdx < Config.srcN)
    (hread : pixelRead s = none) : convTurn s = s.withReadHung true := by
  match hh : s.readHung with
  | true => rw [convTurn_of_hung hc hh, withReadHung_of_hung hh]
  | false => simp [convTurn, hc, (pixelDue_iff s).2 ⟨hc, hh, hi⟩, pixelStep, hread]

theorem loseRead_of_converting (hc : s.convState = .converting) (hi : s.convIdx < Config.srcN) :
    loseRead s = s.withReadHung true := by
  match hh : s.readHung with
  | true => rw [loseRead_of_hung hh, withReadHung_of_hung hh]
  | false => exact if_pos ((pixelDue_iff s).2 ⟨hc, hh, hi⟩)

theorem step_readLost {rest : List Event} (hin : s.inputs = .readLost :: rest) :
    step s = .next (loseRead (s.withInputs rest)) :=
  step_cons hin

/-! ## A converter that is stuck -/

/-- A command finds a busy converter busy, and leaves its variables (R130). -/
theorem CommandResult.converter_of_busy (h : CommandResult s t) (hc : s.convState ≠ .idle) :
    t.convState = s.convState ∧ t.convIdx = s.convIdx ∧ t.convBase = s.convBase := by
  rcases h with ⟨code, rfl⟩ | rfl | ⟨b, rfl⟩
  · simp
  · simp [acceptConvert_of_busy hc]
  · rw [acceptSetBacklight_frame]
    exact ⟨rfl, rfl, rfl⟩

/-- `t` comes after `s` with the converter stuck at the same pixel since, the back-buffer and its cells' free values
those of `s`. -/
structure StuckSince (s t : State) : Prop where
  converting : t.convState = .converting
  hung : t.readHung = true
  convIdx_eq : t.convIdx = s.convIdx
  convBase_eq : t.convBase = s.convBase
  bb_eq : t.bb = s.bb
  resetCount_eq : t.resetCount = s.resetCount

/-- What leaves the converter and its cells alone keeps it stuck. -/
theorem StuckSince.frame (h : StuckSince s u)
    (hconv : v.convState = u.convState ∧ v.convIdx = u.convIdx ∧ v.convBase = u.convBase)
    (hhung : v.readHung = u.readHung) (hbb : v.bb = u.bb) (hcount : v.resetCount = u.resetCount) : StuckSince s v := by
  obtain ⟨hstate, hidx, hbase⟩ := hconv
  exact ⟨hstate.trans h.converting, hhung.trans h.hung, hidx.trans h.convIdx_eq, hbase.trans h.convBase_eq,
    hbb.trans h.bb_eq, hcount.trans h.resetCount_eq⟩

/-- No event but a reset ends the hang (R215). -/
theorem EventResult.keeps_stuck (hv : EventResult u e v) (hreset : e ≠ .reset) (h : StuckSince s u) :
    StuckSince s v := by
  rcases eq_or_ne e .convTurn with rfl | hturn
  · rwa [hv.turn_eq, convTurn_of_hung h.converting h.hung]
  rcases eq_or_ne e .readLost with rfl | hlost
  · rwa [hv.readLost_eq, loseRead_of_hung h.hung]
  have hw := hv.ownWriters hreset
  refine h.frame ?_ (hw.readHung hturn hlost) (hw.image hturn) hw.resetCount
  by_cases hcmd : isCommand e
  · exact (hv.command_result hcmd).converter_of_busy (by simp [h.converting])
  · exact hw.converter hcmd hturn

theorem stuckSince_self (hc : s.convState = .converting) (hh : s.readHung = true) : StuckSince s s :=
  ⟨hc, hh, rfl, rfl, rfl, rfl⟩

/-- Settles O29: the two ways a read goes unanswered, and the hang kept over the run. -/
theorem silentMemoryHoldsTheConverter : Obligations.SilentMemoryHoldsTheConverter := by
  refine ⟨fun s rest j hin hc hi hj hsilent => ?_, fun s rest hin hc hi => ?_, fun s t n hc hh hok hrun => ?_⟩
  · exact (step_convTurn hin).trans (congrArg _ (convTurn_of_silent hc hi (pixelRead_eq_none_iff.2 ⟨j, hj, hsilent⟩)))
  · exact (step_readLost hin).trans (congrArg _ (loseRead_of_converting hc hi))
  · have h : StuckSince s t :=
      run_keeps_of_events (fun h => h.frame ⟨rfl, rfl, rfl⟩ rfl rfl rfl) (fun h he hv => hv.keeps_stuck he h)
        (stuckSince_self hc hh) hok hrun
    exact ⟨h.converting, h.hung, h.convIdx_eq, h.convBase_eq, bbRead_congr h.bb_eq h.resetCount_eq⟩

/-! ## Each hang's own event -/

/-- In WAIT_DRAIN a drain holds the converter, and only the drain's end lets it go (R131). -/
theorem step_keeps_waitDrain {rest : List Event} (hin : s.inputs = e :: rest) (he : e ≠ .reset) (hst : step s = .next t)
    (hc : s.convState = .waitDrain) (hd : s.drainBusy = true) : t.convState = .waitDrain := by
  have hheld : converterEnabled s = false := by simp [converterEnabled, hc, hd]
  obtain ⟨-, -, ⟨-, hen, -⟩ | ⟨-, hstate, -⟩⟩ := step_converter hin he hst (by simp [hc])
  · rw [hheld] at hen
    cases hen
  · exact hstate.trans hc

/-- A command finds a busy backlight unit busy, and leaves its state (R154). -/
theorem CommandResult.blState_of_busy (h : CommandResult s t) (hs : s.blState ≠ .idle) : t.blState = s.blState := by
  rcases h with ⟨code, rfl⟩ | rfl | ⟨b, rfl⟩
  · simp
  · rw [acceptConvert_frame]
    rfl
  · simp [acceptSetBacklight_of_busy b hs]

/-- A backlight unit that waits is let go by an acknowledge alone (R202). -/
theorem EventResult.keeps_blState (h : EventResult s e t) (hreset : e ≠ .reset) (hs : s.blState ≠ .idle)
    (hack : e ≠ .request (.port .slpAck)) : t.blState = s.blState := by
  by_cases hcmd : isCommand e
  · exact (h.command_result hcmd).blState_of_busy hs
  · obtain ⟨-, hstate, -⟩ := (h.ownWriters hreset).backlight hcmd hack
    exact hstate

/-- Settles O30: each hang by what its unit's events can do. -/
theorem hangsEndOnlyByTheirEventOrReset : Obligations.HangsEndOnlyByTheirEventOrReset := by
  refine ⟨fun s t e rest hin hreset hst => ?_, fun s rest hin => ⟨_, step_reset hin, rfl, rfl, rfl⟩⟩
  have h : EventResult (s.withInputs rest) e t := runEvent_cases ((step_cons hin).symm.trans hst)
  refine ⟨step_keeps_waitDrain hin hreset hst, fun hc hh => ?_, h.keeps_blState hreset, fun hquiet => ?_⟩
  · have hstuck := h.keeps_stuck hreset (stuckSince_self hc hh)
    exact ⟨hstuck.converting, hstuck.hung⟩
  · rcases hquiet with rfl | rfl <;> exact (h.ownWriters hreset).err (by simp) (by simp)

/-! ## The pad byte -/

variable {m : Memory}

/-- Two host memories that hold the same R, G and B of the current pixel, whatever their pad bytes, give the same pixel
step (R122, R132). -/
theorem pixelStep_withHostMem_of_pad (h : Hrep)
    (hrgb : ∀ j < 3, pixelByte (s.withHostMem m) s.convBase s.convIdx j = pixelByte s s.convBase s.convIdx j)
    (hpad : (pixelByte s s.convBase s.convIdx 3).isSome = true)
    (hpad' : (pixelByte (s.withHostMem m) s.convBase s.convIdx 3).isSome = true) :
    pixelStep h (s.withHostMem m) = (pixelStep h s).withHostMem m := by
  rcases pixelStep_cases h s with ⟨r, g, b, p, hread, hstep⟩ | ⟨hread, hstep⟩ <;> rw [hstep]
  · obtain ⟨hr, hg, hb, -⟩ := (memRead_pixel ..).1 hread
    obtain ⟨p', hp'⟩ := Option.isSome_iff_exists.1 hpad'
    have hread' : pixelRead (s.withHostMem m) = some [r, g, b, p'] :=
      (memRead_pixel ..).2
        ⟨(hrgb 0 (by decide)).trans hr, (hrgb 1 (by decide)).trans hg, (hrgb 2 (by decide)).trans hb, hp'⟩
    simp only [pixelStep, hread']
    rfl
  · obtain ⟨j, hj, hsilent⟩ := pixelRead_eq_none_iff.1 hread
    have hj3 : j < 3 := by
      by_contra h3
      obtain rfl : j = 3 := by omega
      rw [hsilent] at hpad
      cases hpad
    have hread' : pixelRead (s.withHostMem m) = none := pixelRead_eq_none_iff.2 ⟨j, hj, (hrgb j hj3).trans hsilent⟩
    simp only [pixelStep, hread']
    rfl

/-- A turn does on another host memory what it does here, where the pixel step it may take does. -/
theorem convTurn_withHostMem_of_pixelStep
    (hstep : pixelStep s.hrep (s.withHostMem m) = (pixelStep s.hrep s).withHostMem m) :
    convTurn (s.withHostMem m) = (convTurn s).withHostMem m := by
  simp only [convTurn, withHostMem_convState, withHostMem_hrep, interlockStep_withHostMem, hstep]
  split
  · rfl
  · rfl
  · rw [ite_withHostMem]
    rfl

/-- Settles O31: the pixel step is the same, and so is the turn. -/
theorem padByteNeverMatters : Obligations.PadByteNeverMatters := by
  intro s t t' m rest hin hrgb hpad hpad' hst hst'
  have ht : convTurn (s.withInputs rest) = t := Host.Outcome.next.inj ((step_convTurn hin).symm.trans hst)
  have ht' : convTurn ((s.withInputs rest).withHostMem m) = t' :=
    Host.Outcome.next.inj ((step_convTurn (s := s.withHostMem m) hin).symm.trans hst')
  calc t'
    _ = convTurn ((s.withInputs rest).withHostMem m) := ht'.symm
    _ = (convTurn (s.withInputs rest)).withHostMem m :=
      convTurn_withHostMem_of_pixelStep (pixelStep_withHostMem_of_pad s.hrep hrgb hpad hpad')
    _ = t.withHostMem m := by rw [ht]

end Sys2Proof.Machine
end

section
/-! SUPPORT. Host memory after a store or a mapping (20_memory.md R70, R74): each byte lands at its own address, modulo
2^32. -/

namespace Sys2Proof.Machine

/-- Addresses follow one another modulo 2^32 (R10). -/
theorem addr_add_one (addr : Word) (k : Nat) : addr + 1 + BitVec.ofNat 32 k = addr + BitVec.ofNat 32 (k + 1) := by
  rw [Nat.add_comm k, BitVec.ofNat_add, BitVec.add_assoc]
  rfl

theorem addr_add_zero (addr : Word) : addr + BitVec.ofNat 32 0 = addr :=
  BitVec.add_zero addr

/-- Among 2^32 bytes in a row no later one lands on the first one's address. -/
theorem addr_add_ne {k : Nat} (hk : k + 1 < 2 ^ 32) (addr : Word) : addr + BitVec.ofNat 32 (k + 1) ≠ addr := by
  bv_omega

/-- A store reads back byte by byte at the addresses that answer (R70, R74). -/
theorem memByte_memStore {bytes : List Byte} (hlen : bytes.length ≤ 2 ^ 32) (m : Memory) (addr : Word) {k : Nat}
    {b : Byte} (hb : bytes[k]? = some b) :
    memByte (memStore m addr bytes) (addr + BitVec.ofNat 32 k).toNat =
      if (memByte m (addr + BitVec.ofNat 32 k).toNat).isSome then some b else none := by
  induction bytes generalizing m addr k with
  | nil => cases hb
  | cons b0 bs ih =>
    rw [List.length_cons] at hlen
    rw [memStore]
    cases k with
    | zero =>
      obtain rfl : b0 = b := Option.some.inj hb
      have havoid : ∀ k < bs.length, addr + 1 + BitVec.ofNat 32 k ≠ addr := fun k hk =>
        addr_add_one addr k ▸ addr_add_ne (by omega) addr
      rw [addr_add_zero, memByte_memStore_of_avoid _ _ _ _ havoid, memByte_memWrite]
      cases memByte m addr.toNat <;> simp
    | succ k => rw [← addr_add_one, ih (by omega) _ _ hb, memByte_memWrite_isSome]

/-- A mapping gives its bytes to the addresses that do not answer yet (R74). -/
theorem memByte_memMap {bytes : List Byte} (hlen : bytes.length ≤ 2 ^ 32) (m : Memory) (addr : Word) {k : Nat}
    {b : Byte} (hb : bytes[k]? = some b) :
    memByte (memMap m addr bytes) (addr + BitVec.ofNat 32 k).toNat =
      some ((memByte m (addr + BitVec.ofNat 32 k).toNat).getD b) := by
  induction bytes generalizing m addr k with
  | nil => cases hb
  | cons b0 bs ih =>
    rw [List.length_cons] at hlen
    rw [memMap]
    cases k with
    | zero =>
      obtain rfl : b0 = b := Option.some.inj hb
      have havoid : ∀ k < bs.length, addr + 1 + BitVec.ofNat 32 k ≠ addr := fun k hk =>
        addr_add_one addr k ▸ addr_add_ne (by omega) addr
      rw [addr_add_zero, memByte_memMap_of_avoid _ _ _ _ havoid, memByte_memInit]
      cases memByte m addr.toNat <;> simp
    | succ k =>
      have hk : k < bs.length := (List.getElem?_eq_some_iff.1 (List.getElem?_cons_succ.symm.trans hb)).1
      have hne : (addr + BitVec.ofNat 32 (k + 1)).toNat ≠ addr.toNat := fun h =>
        addr_add_ne (by omega) addr (BitVec.eq_of_toNat_eq h)
      rw [← addr_add_one, ih (by omega) _ _ hb, addr_add_one, memByte_memInit, if_neg fun h => hne h.1]

/-- Settles O45: the step writes host memory alone, byte by byte. -/
theorem hostStoreIsWhatIsRead : Obligations.HostStoreIsWhatIsRead := fun s _ addr bytes hin hlen =>
  ⟨_, step_cons hin, rfl, fun _ _ hb => memByte_memStore hlen s.hostMem addr hb,
    fun a ha => memByte_memStore_of_avoid bytes s.hostMem addr a ha⟩

/-- Settles O46: the step writes host memory alone, byte by byte. -/
theorem mappedMemoryAnswers : Obligations.MappedMemoryAnswers := fun s _ addr bytes hin hlen =>
  ⟨_, step_cons hin, rfl, fun _ _ hb => memByte_memMap hlen s.hostMem addr hb,
    fun a ha => memByte_memMap_of_avoid bytes s.hostMem addr a ha⟩

end Sys2Proof.Machine
end

section
/-! SUPPORT. The gamma table against its formula (41_backlight.md R151, R152): the power 14/5 is met by its fifth power,
so each entry is a comparison of whole numbers. -/

namespace Sys2Proof.Machine

/-- Each entry g lies within one half of its exact value: (g - 1/2)^5 ≤ 65535^5 (b/255)^14 < (g + 1/2)^5, cleared of
denominators. -/
theorem gammaLut_bounds : ∀ b : Byte,
    (2 * (gammaLut b).toNat - 1) ^ 5 * 255 ^ 14 ≤ (2 * 65535) ^ 5 * b.toNat ^ 14 ∧
      (2 * 65535) ^ 5 * b.toNat ^ 14 < (2 * (gammaLut b).toNat + 1) ^ 5 * 255 ^ 14 := by
  decide

/-- The fifth power of the curve (R151). -/
theorem curve_pow_five (b : Nat) :
    (((b : ℝ) / 255) ^ ((14 : ℝ) / 5)) ^ 5 = (b : ℝ) ^ 14 / 255 ^ 14 := by
  have h0 : (0 : ℝ) ≤ (b : ℝ) / 255 := by positivity
  rw [← Real.rpow_natCast, ← Real.rpow_mul h0, ← div_pow, ← Real.rpow_natCast]
  norm_num

theorem le_curve_iff (n b : Nat) :
    (n : ℝ) ≤ 2 * 65535 * ((b : ℝ) / 255) ^ ((14 : ℝ) / 5) ↔ n ^ 5 * 255 ^ 14 ≤ (2 * 65535) ^ 5 * b ^ 14 := by
  rw [← pow_le_pow_iff_left₀ (by positivity) (by positivity) (by decide : 5 ≠ 0), mul_pow, curve_pow_five,
    ← mul_div_assoc, le_div_iff₀ (by positivity)]
  exact_mod_cast Iff.rfl

/-- Settles O38: the floor is the entry where the fifth powers compare as the table's bounds say. -/
theorem gammaTableIsTheExactCurve : Obligations.GammaTableIsTheExactCurve := by
  intro b
  obtain ⟨hlow, hhigh⟩ := gammaLut_bounds b
  have hle := (le_curve_iff _ _).2 hlow
  have hlt := lt_of_not_ge fun h => Nat.not_le.2 hhigh ((le_curve_iff _ _).1 h)
  have hsub : (2 * (gammaLut b).toNat : ℝ) ≤ (2 * (gammaLut b).toNat - 1 : Nat) + 1 := by
    exact_mod_cast le_tsub_add
  refine ((Nat.floor_eq_iff (by positivity)).2 ⟨?_, ?_⟩).symm
  · linarith
  · push_cast at hlt
    linarith

end Sys2Proof.Machine
end

section
/-! SUPPORT. Progress (70_reset_and_hazards.md R254): over a fair schedule without an end a conversion comes to IDLE,
and so does a sleep transition. -/

namespace Sys2Proof.Machine

/-! ## Executions -/

/-- The states `st n` a schedule without an end leads through, no step of it refused (R11). -/
def Execution (schedule : Nat → Event) (st : Nat → State) : Prop :=
  ∀ n, stateAt schedule (st 0) n = .next (st n)

section execution

variable {schedule : Nat → Event} {st : Nat → State}

theorem exists_execution {s : State} {Q : Nat → State → Prop} (h : ∀ n, ∃ u, stateAt schedule s n = .next u ∧ Q n u) :
    ∃ st, st 0 = s ∧ Execution schedule st ∧ ∀ n, Q n (st n) := by
  choose st hst hQ using h
  obtain rfl : s = st 0 := Host.Outcome.next.inj (hst 0)
  exact ⟨st, rfl, hst, hQ⟩

/-- Each step of an execution takes the schedule's next event. -/
theorem Execution.step (hex : Execution schedule st) (n : Nat) :
    step ((st n).withInputs [schedule n]) = .next (st (n + 1)) := by
  have h := hex (n + 1)
  rwa [stateAt, hex n] at h

theorem Execution.event (hex : Execution schedule st) (n : Nat) :
    EventResult ((st n).withInputs []) (schedule n) (st (n + 1)) :=
  runEvent_cases ((stateAt_succ (hex n)).symm.trans (hex (n + 1)))

theorem Execution.inv (hex : Execution schedule st) (h0 : (st 0).Inv) (n : Nat) : (st n).Inv := by
  induction n with
  | zero => exact h0
  | succ n ih => exact step_keeps_inv (withInputs_keeps_inv ih _) (hex.step n)

/-! ## Sleep transitions -/

/-- An acknowledge or a reset ends a sleep transition (R202, R241). -/
theorem Execution.sleep_ends (hex : Execution schedule st) (h0 : (st 0).Inv) {n : Nat}
    (hn : schedule n = .request (.port .slpAck) ∨ schedule n = .reset) :
    (st (n + 1)).blState = .idle := by
  have h := hex.event n
  have hinv := hex.inv h0 n
  rcases hn with hn | hn <;> rw [hn] at h
  · obtain ⟨hreq, ht⟩ := h.ack_eq
    rcases acknowledge_cases ((st n).withInputs []) with ⟨hi, -⟩ | ⟨-, ha⟩ | ⟨-, ha⟩
    · cases hreq.symm.trans (hinv.idle_iff_no_request.1 hi)
    · rw [ht, ha]
      rfl
    · rw [ht, ha]
      rfl
  · rw [h.reset_eq]
    rfl

end execution

/-- Settles O54: a unit that waits has its request out, and the fair sequencer ends the wait. -/
theorem fairSleepTransitionsEnd : Obligations.FairSleepTransitionsEnd := by
  intro schedule s hinv hgo hfair
  obtain ⟨st, rfl, hex, -⟩ := exists_execution (Q := fun _ _ => True) fun n => (hgo n).imp fun _ h => ⟨h, trivial⟩
  have hidle : ∃ n, (st n).blState = .idle := by
    by_cases hreq : (st 0).slpReq = true
    · obtain ⟨m, -, hm⟩ := hfair 0 _ (hex 0) hreq
      exact ⟨m + 1, hex.sleep_ends hinv hm⟩
    · exact ⟨0, hinv.idle_iff_no_request.2 (by simpa using hreq)⟩
  obtain ⟨n, hn⟩ := hidle
  exact ⟨n, st n, hex n, hn, (hex.inv hinv n).idle_iff_no_request.1 hn⟩

end Sys2Proof.Machine
end

section
/-! SUPPORT. Progress of a conversion (70_reset_and_hazards.md R254): while it is underway the framebuffer goes on
answering, once the drain is over the converter always has an enabled step, and each one taken leaves fewer to take. -/

namespace Sys2Proof.Machine

/-- How many internal steps the converter has left to IDLE (R133). -/
def stepsLeft (s : State) : Nat :=
  match s.convState with
  | .idle => 0
  | .waitDrain => 1 + Config.srcN
  | .converting => Config.srcN - s.convIdx

/-- The converter is not stuck and every byte of its framebuffer answers. -/
structure FramebufferAnswers (s : State) : Prop where
  not_hung : s.readHung = false
  bytes : ∀ i < Config.srcN, ∀ j < 4, (pixelByte s s.convBase i j).isSome = true

variable {s t : State} {e : Event} {rest : List Event}

/-- A busy converter's enabled step leaves fewer to take; any other event but a reset leaves as many. -/
theorem step_stepsLeft (hin : s.inputs = e :: rest) (he : e ≠ .reset) (hst : step s = .next t)
    (hc : s.convState ≠ .idle) :
    (e = .convTurn ∧ converterEnabled s = true ∧ stepsLeft t < stepsLeft s) ∨
      (¬ (e = .convTurn ∧ converterEnabled s = true) ∧ stepsLeft t = stepsLeft s) := by
  obtain ⟨-, -, ⟨hturn, hen, ⟨hs, ht, -⟩ | ⟨hs, hidx, hlt, ht⟩⟩ | ⟨hno, hstate, hidx⟩⟩ :=
    step_converter hin he hst hc
  · refine .inl ⟨hturn, hen, ?_⟩
    simp only [stepsLeft, hs, ht]
    omega
  · refine .inl ⟨hturn, hen, ?_⟩
    split at ht <;> simp only [stepsLeft, hs, ht] <;> omega
  · exact .inr ⟨hno, by simp only [stepsLeft, hstate, hidx]⟩

/-- No event makes an address silent (R70). -/
theorem EventResult.keeps_answers (h : EventResult s e t) {a : Nat} (ha : (memByte s.hostMem a).isSome = true) :
    (memByte t.hostMem a).isSome = true := by
  cases h with
  | hostStore addr bytes => exact (memByte_memStore_isSome bytes s.hostMem addr a).trans ha
  | mapMemory addr bytes =>
    obtain ⟨v, hv⟩ := Option.isSome_iff_exists.1 ha
    exact Option.isSome_iff_exists.2 ⟨v, memByte_memMap_of_answers bytes addr hv⟩
  | reset => exact ha
  | turn =>
    rw [convTurn_frame]
    exact ha
  | readLost => rcases loseRead_cases s with ⟨-, h⟩ | ⟨-, h⟩ <;> rw [h] <;> exact ha
  | command _ hc =>
    rw [hc.frame]
    exact ha
  | access hacc =>
    cases hacc with
    | ack =>
      rw [acknowledge_frame]
      exact ha
    | _ => exact ha

/-- The events to come do not matter to it. -/
theorem FramebufferAnswers.withInputs (h : FramebufferAnswers s) (es : List Event) :
    FramebufferAnswers (s.withInputs es) :=
  ⟨h.not_hung, h.bytes⟩

theorem pixelRead_isSome (h : FramebufferAnswers s) (hi : s.convIdx < Config.srcN) : ∃ bs, pixelRead s = some bs := by
  obtain ⟨r, g, b, p, hread⟩ := memRead_of_answers (h.bytes _ hi)
  exact ⟨_, hread⟩

/-- A turn whose framebuffer answers does not get stuck. -/
theorem convTurn_keeps_readHung (h : FramebufferAnswers s) : (convTurn s).readHung = false := by
  rcases convTurn_cases s with ht | ⟨-, -, ht⟩ | ⟨-, -, -, r, g, b, p, -, ht⟩ | ⟨-, -, hi, hread, -⟩
  · rw [ht, h.not_hung]
  · rw [ht]
    exact h.not_hung
  · rw [ht]
    exact h.not_hung
  · obtain ⟨bs, hsome⟩ := pixelRead_isSome h hi
    cases hread.symm.trans hsome

theorem EventResult.keeps_framebufferAnswers (h : EventResult s e t) (hreset : e ≠ .reset) (hlost : e ≠ .readLost)
    (hc : s.convState ≠ .idle) (hs : FramebufferAnswers s) : FramebufferAnswers t := by
  obtain ⟨hbase, -⟩ := h.imageResult hreset hc
  refine ⟨?_, fun i hi j hj => hbase ▸ h.keeps_answers (hs.bytes i hi j hj)⟩
  rcases eq_or_ne e .convTurn with rfl | hturn
  · rw [h.turn_eq]
    exact convTurn_keeps_readHung hs
  · exact ((h.ownWriters hreset).readHung hturn hlost).trans hs.not_hung

/-- With the drain over and the framebuffer answering, a busy converter has an enabled step (R131, R132). -/
theorem converterEnabled_of_answers (hinv : s.Inv) (h : FramebufferAnswers s) (hc : s.convState ≠ .idle)
    (hd : s.drainBusy = false) : converterEnabled s = true := by
  match hs : s.convState with
  | .idle => exact absurd hs hc
  | .waitDrain => simp [converterEnabled, hs, hd]
  | .converting =>
    have hi := hinv.converting hs
    obtain ⟨bs, hread⟩ := pixelRead_isSome h hi
    simp [converterEnabled, hs, (pixelDue_iff s).2 ⟨hs, h.not_hung, hi⟩, hread]

/-! ## A conversion that does not end -/

/-- An execution over which a conversion, its framebuffer answering, would never end, where no read is lost and the
drain agent keeps its contract. -/
structure EndlessConversion (schedule : Nat → Event) (st : Nat → State) : Prop where
  execution : Execution schedule st
  inv : (st 0).Inv
  answers : FramebufferAnswers (st 0)
  no_readLost : ∀ n, schedule n ≠ .readLost
  contract : ∀ n, drainContract (st n) (schedule n)
  busy : ∀ n, (st n).convState ≠ .idle

namespace EndlessConversion

variable {schedule : Nat → Event} {st : Nat → State} (h : EndlessConversion schedule st)
include h

theorem ne_reset (n : Nat) : schedule n ≠ .reset := by
  intro hn
  have hev := h.execution.event n
  rw [hn] at hev
  exact h.busy (n + 1) (hev.reset_eq ▸ rfl)

theorem answers_at (n : Nat) : FramebufferAnswers (st n) := by
  induction n with
  | zero => exact h.answers
  | succ n ih =>
    exact (h.execution.event n).keeps_framebufferAnswers (h.ne_reset n) (h.no_readLost n) (h.busy n)
      (ih.withInputs [])

/-- Under the contract no drain begins. -/
theorem drain_stays_over {m n : Nat} (hmn : m ≤ n) (hm : (st m).drainBusy = false) : (st n).drainBusy = false := by
  induction n, hmn using Nat.le_induction with
  | base => exact hm
  | succ n _ ih =>
    by_contra hbusy
    exact h.busy (n + 1) ((h.execution.event n).drain_begins (h.contract n) ih (by simpa using hbusy))

theorem drain_ends (hfair : DrainFair schedule (st 0)) : ∃ m, (st m).drainBusy = false := by
  by_contra! hbusy
  obtain ⟨m, -, hm⟩ := hfair 0 _ (h.execution 0) (by simpa using hbusy 0)
  have hev := h.execution.event m
  rw [hm] at hev
  exact hbusy (m + 1) (hev.drainEnd_eq ▸ rfl)

theorem stepsLeft_succ (n : Nat) :
    (schedule n = .convTurn ∧ converterEnabled (st n) = true ∧ stepsLeft (st (n + 1)) < stepsLeft (st n)) ∨
      (¬ (schedule n = .convTurn ∧ converterEnabled (st n) = true) ∧ stepsLeft (st (n + 1)) = stepsLeft (st n)) :=
  step_stepsLeft (s := (st n).withInputs [schedule n]) rfl (h.ne_reset n) (h.execution.step n) (h.busy n)

theorem stepsLeft_antitone : Antitone fun n => stepsLeft (st n) :=
  antitone_nat_of_succ_le fun n => by
    rcases h.stepsLeft_succ n with ⟨-, -, hlt⟩ | ⟨-, heq⟩
    · exact hlt.le
    · exact heq.le

/-- Once the drain is over, the fair converter takes one more of its steps after every point (R254). -/
theorem stepsLeft_falls (hconv : ConverterFair schedule (st 0)) {n : Nat} (hd : (st n).drainBusy = false) :
    ∃ m ≥ n, stepsLeft (st m) < stepsLeft (st n) := by
  have henabled (m : Nat) (hm : n ≤ m) : converterEnabled (st m) = true :=
    converterEnabled_of_answers (h.execution.inv h.inv m) (h.answers_at m) (h.busy m) (h.drain_stays_over hm hd)
  obtain ⟨m, hm, hturn⟩ := hconv n _ (h.execution n) (henabled n le_rfl)
  have htaken : schedule m = .convTurn ∧ converterEnabled (st m) = true := by
    refine ⟨hturn.resolve_right ?_, henabled m hm⟩
    rintro ⟨v, hv, hdisabled⟩
    obtain rfl : st m = v := Host.Outcome.next.inj ((h.execution m).symm.trans hv)
    cases hdisabled.symm.trans (henabled m hm)
  rcases h.stepsLeft_succ m with ⟨-, -, hlt⟩ | ⟨hno, -⟩
  · exact ⟨m + 1, by omega, hlt.trans_le (h.stepsLeft_antitone hm)⟩
  · exact absurd htaken hno

/-- The steps left cannot fall for ever. -/
theorem false_of_fair (hconv : ConverterFair schedule (st 0)) (hdrain : DrainFair schedule (st 0)) : False := by
  obtain ⟨N, hN⟩ := h.drain_ends hdrain
  obtain ⟨n, hn, hmin⟩ :=
    (measure fun n => stepsLeft (st n)).wf.has_min {n | N ≤ n} ⟨N, Nat.le_refl N⟩
  obtain ⟨m, hm, hlt⟩ := h.stepsLeft_falls hconv (h.drain_stays_over hn hN)
  exact hmin m (hn.trans hm) hlt

end EndlessConversion

/-- Settles O53: a conversion that does not end would take ever more of its finitely many steps. -/
theorem fairConversionsEnd : Obligations.FairConversionsEnd := by
  intro schedule s hinv hhung hmem hlost hgo hconv hdrain
  obtain ⟨st, rfl, hex, hcontract⟩ := exists_execution hgo
  by_contra! hbusy
  exact EndlessConversion.false_of_fair
    ⟨hex, hinv, ⟨hhung, hmem⟩, hlost, hcontract, fun n => hbusy n _ (hex n)⟩ hconv hdrain

end Sys2Proof.Machine
end
